-- ==== Sys2Proof/Word.lean ====
section
/-! DEFINITION. The word types of the SWPE: every register is one byte, every host address three bits (10_state.md R25). -/

namespace Sys2Proof

/-- An 8-bit register or command byte (10_state.md R25, 30_encoding.md R80). -/
abbrev Byte := BitVec 8

/-- A host register address, `addr[2:0]` (10_state.md R22). -/
abbrev Addr := BitVec 3

end Sys2Proof
end

