-- ==== Sys2Proof/Config.lean ====
section
/-! DEFINITION. The elaboration-time parameters of an instance (00_scope.md R6), and the two constants no spec line fixes: the OPEN
CLK_PER_TICK and the level of the line, a free draw every clock cycle. -/

namespace Sys2Proof

/-- The parameters of one instance (00_scope.md R6). Durations are tick counts. A set is legal only under the constraints of
00_scope.md R7 (`Params.legal`). -/
structure Params where
  /-- CLK_PER_TICK: clock cycles per tick. -/
  clkPerTick : Nat
  /-- T_RSTH: reset, driven-high lead-in. -/
  tRstH : Nat
  /-- T_RSTL: reset, low pulse. -/
  tRstL : Nat
  /-- T_RSTR: reset, release wait. -/
  tRstR : Nat
  /-- P_WAIT_MAX: presence, maximum polls for the falling edge. -/
  pWaitMax : Nat
  /-- P_LOW_MIN: presence, minimum low samples accepted. -/
  pLowMin : Nat
  /-- P_LOW_MAX: presence, maximum low samples accepted. -/
  pLowMax : Nat
  /-- T_RL: read slot, low pulse. -/
  tRl : Nat
  /-- T_RS: read slot, release to sample. -/
  tRs : Nat
  /-- T_RREC: read slot, remainder after the sample. -/
  tRrec : Nat
  /-- T_W1L: write-1 slot, low pulse. -/
  tW1l : Nat
  /-- T_W1R: write-1 slot, release. -/
  tW1r : Nat
  /-- T_W0L: write-0 slot, low pulse. -/
  tW0l : Nat
  /-- T_W0R: write-0 slot, release. -/
  tW0r : Nat
  /-- CNT_W: width of the tick timer and the presence counter. -/
  cntW : Nat
  /-- SYNC_STAGES: input synchronizer depth. -/
  syncStages : Nat
  deriving DecidableEq, Repr

/-- The default column of 00_scope.md R6, for a CLK_PER_TICK given as an argument (the table gives none: OPEN). -/
def Params.nominal (clkPerTick : Nat) : Params where
  clkPerTick := clkPerTick
  tRstH := 2
  tRstL := 480
  tRstR := 8
  pWaitMax := 60
  pLowMin := 60
  pLowMax := 240
  tRl := 5
  tRs := 5
  tRrec := 70
  tW1l := 5
  tW1r := 55
  tW0l := 60
  tW0r := 5
  cntW := 10
  syncStages := 2

/-- One less than the CLK_PER_TICK of the instance that `State.reset` stands for: OPEN in 00_scope.md R6 (92_eei_decisions.md D1),
so it has no body, and nothing can be proved of its value. Written as a predecessor because every legal CLK_PER_TICK is at
least 1 (00_scope.md R7 item 1). DESIGN CHOICE, log 4. -/
opaque Config.clkPerTickPred : Nat

/-- The level `dq_i` has in a clock cycle for which `State.line` lists none, by the cycle's number: the free draw of
10_state.md R34 (93_implementation_defined.md S1). It has no body, and nothing can be proved of its values. Log 3. -/
opaque Config.lineLevel : Nat → Bool

/-- The parameters of the instance that `State.reset` stands for: the spec's defaults and the OPEN CLK_PER_TICK. Log 4. -/
def Params.ofReset : Params := Params.nominal (Config.clkPerTickPred + 1)

end Sys2Proof
end

