-- ==== Sys2Proof/Syntax.lean ====
section
/-! DEFINITION. The instructions of the SWPE: the nine commands of 30_encoding.md R83, one constructor per row of
spec/opcode_table.json, in the table's order. No command has an operand (30_encoding.md R82). -/

namespace Sys2Proof

/-- A command (30_encoding.md R83). -/
inductive Instr where
  /-- NOP, 0x00 (40_engine_timing.md R111). -/
  | nop
  /-- RESET, 0x01 (41_reset_presence.md R131). -/
  | reset
  /-- PRESENCE, 0x02 (41_reset_presence.md R132). -/
  | presence
  /-- RSTPRES, 0x03 (41_reset_presence.md R135). -/
  | rstpres
  /-- READ_BIT, 0x04 (42_bit_byte.md R153). -/
  | readBit
  /-- READ_BYTE, 0x05 (42_bit_byte.md R154). -/
  | readByte
  /-- WRITE_BYTE, 0x06 (42_bit_byte.md R159). -/
  | writeByte
  /-- CRC_CLEAR, 0x07 (43_crc8.md R172). -/
  | crcClear
  /-- CRC_FEED, 0x08 (43_crc8.md R173). -/
  | crcFeed
  deriving DecidableEq, Repr

end Sys2Proof
end

