-- ==== Sys2Proof/WellFormed.lean ====
section
/-! DEFINITION. What is well formed: a command byte of format C (30_encoding.md R81, R84), and a parameter set by the six
constraints of 00_scope.md R7. An `Instr` carries no operand (30_encoding.md R82), so every `Instr` is well formed and there is
no check on it. -/

namespace Sys2Proof

/-- A byte of format C with an opcode of the map: bits 7:4 are 0b0000 and bits 3:0 at most 8 (30_encoding.md R81, R83, R84). -/
def wellFormedCommand (c : Byte) : Bool :=
  c.extractLsb' 4 4 == 0#4 && decide ((c.extractLsb' 0 4).toNat ≤ 8)

/-- The largest value of a CNT_W-bit counter. -/
def Params.cntMax (p : Params) : Nat := 2 ^ p.cntW - 1

/-- The durations T_* of a parameter set. -/
def Params.durations (p : Params) : List Nat :=
  [p.tRstH, p.tRstL, p.tRstR, p.tRl, p.tRs, p.tRrec, p.tW1l, p.tW1r, p.tW0l, p.tW0r]

/-- 00_scope.md R7 item 1: CLK_PER_TICK ≥ 1 and SYNC_STAGES ≥ 1. -/
def Params.clocked (p : Params) : Bool := p.clkPerTick != 0 && p.syncStages != 0

/-- 00_scope.md R7 item 2: every T_* ≥ 1, P_WAIT_MAX ≥ 1, P_LOW_MIN ≥ 1. -/
def Params.positive (p : Params) : Bool :=
  p.durations.all (fun t => decide (1 ≤ t)) && decide (1 ≤ p.pWaitMax) && decide (1 ≤ p.pLowMin)

/-- 00_scope.md R7 item 3: P_LOW_MIN ≤ P_LOW_MAX. -/
def Params.pulseOrdered (p : Params) : Bool := decide (p.pLowMin ≤ p.pLowMax)

/-- 00_scope.md R7 item 4: every T_*, P_WAIT_MAX and P_LOW_MAX + 1 fits in CNT_W bits. -/
def Params.countersFit (p : Params) : Bool :=
  p.durations.all (fun t => decide (t ≤ p.cntMax)) && decide (p.pWaitMax ≤ p.cntMax) && decide (p.pLowMax + 1 ≤ p.cntMax)

/-- 00_scope.md R7 item 5: T_W1L < T_W0L. -/
def Params.shortIsOne (p : Params) : Bool := decide (p.tW1l < p.tW0l)

/-- 00_scope.md R7 item 6: the reset pulse is longer than every slot. -/
def Params.resetDominates (p : Params) : Bool :=
  decide (p.tW0l + p.tW0r < p.tRstL) && decide (p.tW1l + p.tW1r < p.tRstL) && decide (p.tRl + p.tRs + p.tRrec < p.tRstL)

/-- A legal parameter set: all six constraints of 00_scope.md R7. -/
def Params.legal (p : Params) : Bool :=
  p.clocked && p.positive && p.pulseOrdered && p.countersFit && p.shortIsOne && p.resetDominates

end Sys2Proof
end

