-- ==== Sys2Proof/Decode.lean ====
section
/-! DEFINITION. The decoder of 30_encoding.md R85, total on every byte, and the encoder of the opcode map of R83. -/

namespace Sys2Proof

/-- What a command byte decodes to (30_encoding.md R84, R85): a command, or a reserved byte, by the reason it is reserved. -/
inductive Decoded where
  /-- One of the nine commands. -/
  | command (i : Instr)
  /-- Reserved: bits 7:4 are not 0b0000. -/
  | reservedNibble
  /-- Reserved: bits 7:4 are 0b0000 and the opcode is 0x9 to 0xF. -/
  | reservedOpcode
  deriving DecidableEq, Repr

/-- `rsv`, bits 7:4 of format C (30_encoding.md R81). -/
def rsvField (c : Byte) : BitVec 4 := c.extractLsb' 4 4

/-- `op`, bits 3:0 of format C (30_encoding.md R81). -/
def opField (c : Byte) : BitVec 4 := c.extractLsb' 0 4

/-- The decoder (30_encoding.md R85). -/
def decode (c : Byte) : Decoded :=
  if rsvField c ≠ 0#4 then .reservedNibble
  else
    match (opField c).toNat with
    | 0 => .command .nop
    | 1 => .command .reset
    | 2 => .command .presence
    | 3 => .command .rstpres
    | 4 => .command .readBit
    | 5 => .command .readByte
    | 6 => .command .writeByte
    | 7 => .command .crcClear
    | 8 => .command .crcFeed
    | _ => .reservedOpcode

/-- The command of a decoded byte, if it is one. -/
def decodedInstr : Decoded → Option Instr
  | .command i => some i
  | .reservedNibble => none
  | .reservedOpcode => none

/-- The byte of each command (30_encoding.md R83). -/
def encode : Instr → Byte
  | .nop => 0b00000000#8
  | .reset => 0b00000001#8
  | .presence => 0b00000010#8
  | .rstpres => 0b00000011#8
  | .readBit => 0b00000100#8
  | .readByte => 0b00000101#8
  | .writeByte => 0b00000110#8
  | .crcClear => 0b00000111#8
  | .crcFeed => 0b00001000#8

/-- The byte an instruction of the opcode table is, from its `nbits` table bits `w` and zeros above them. Every command is one
byte (30_encoding.md R80), so a wider word is no instruction. -/
def tableByte (nbits w : Nat) : Option Byte :=
  if w % 2 ^ nbits < 256 then some (BitVec.ofNat 8 (w % 2 ^ nbits)) else none

/-- What the decoder reads from a word numbered as spec/opcode_table.json numbers it. -/
def decodeTableWord (nbits w : Nat) : Option Instr :=
  match tableByte nbits w with
  | some c => decodedInstr (decode c)
  | none => none

end Sys2Proof
end

