-- ==== Sys2Proof/Machine/State.lean ====
section
/-! DEFINITION. The state of the SWPE: exactly the elements of 10_state.md R43, the instance's parameters, and the model's own
record of the two environment agents (the host port cycles and the line levels still to come). -/

namespace Sys2Proof.Machine

/-- `fsm.op`, the current command (10_state.md R37). -/
inductive Op where
  | idle
  | reset
  | presence
  | rstpres
  | readBit
  | readByte
  | writeByte
  deriving DecidableEq, Repr

/-- `fsm.ph`, the current phase (10_state.md R38). -/
inductive Phase where
  | none
  | rstHi
  | rstLo
  | rstRel
  | prWait
  | prLow
  | rdLo
  | rdSmp
  | rdRec
  | wr1Lo
  | wr1Rel
  | wr0Lo
  | wr0Rel
  deriving DecidableEq, Repr

/-- STATUS.PFAIL by its names (10_state.md R27, 60_exceptions.md R193); its two bits are `pfailBits`. -/
inductive PFail where
  | none
  | nofall
  | short
  | long
  deriving DecidableEq, Repr

/-- The driver state `drv` (10_state.md R33): a function of the phase, not state. -/
inductive Drv where
  | rel
  | hi
  | lo
  deriving DecidableEq, Repr

/-- The inputs of one clock cycle but for the line: the block reset (10_state.md R20) and the host port (10_state.md R22,
20_memory.md R60). -/
structure PortCycle where
  /-- `rst_n`: false holds the block in reset for the whole cycle (70_reset_and_hazards.md R210; log 7). -/
  rstN : Bool
  addr : Addr
  we : Bool
  re : Bool
  /-- `wdata[7:0]`, read only when `we` is set. -/
  wdata : Byte
  deriving DecidableEq, Repr

/-- The machine. From `done` to `shreg`: the state of 10_state.md R43, all of it. `params`: the instance's configuration, which no
step changes (00_scope.md R6). `host` to `rdata`: the model's own record of the environment (logs 2, 3, 6). -/
structure State where
  /-- STATUS.DONE (10_state.md R27). -/
  done : Bool
  /-- STATUS.PRESENT (10_state.md R27). -/
  present : Bool
  /-- STATUS.PFAIL (10_state.md R27). -/
  pfail : PFail
  /-- STATUS.RBIT (10_state.md R27). -/
  rbit : Bool
  /-- CTRL.PUEN (10_state.md R28). -/
  puen : Bool
  /-- CTRL.CRCRX (10_state.md R28). -/
  crcrx : Bool
  /-- TXDATA (10_state.md R29). -/
  txdata : Byte
  /-- RXDATA (10_state.md R30). -/
  rxdata : Byte
  /-- CRC (10_state.md R31). -/
  crc : Byte
  /-- ERR.EBUSY (10_state.md R32). -/
  ebusy : Bool
  /-- ERR.ERSVD (10_state.md R32). -/
  ersvd : Bool
  /-- The input synchronizer, `sync[0]` first (10_state.md R35). -/
  sync : List Bool
  /-- `pre_cnt`, the prescaler (10_state.md R36). -/
  preCnt : Nat
  /-- `fsm.op` (10_state.md R37). -/
  op : Op
  /-- `fsm.ph` (10_state.md R38). -/
  ph : Phase
  /-- The phase timer (10_state.md R39). -/
  timer : Nat
  /-- The presence counter (10_state.md R40). -/
  pcnt : Nat
  /-- The bit counter (10_state.md R41). -/
  bitcnt : BitVec 3
  /-- The shift register (10_state.md R42). -/
  shreg : Byte
  /-- The parameters of the instance (00_scope.md R6). -/
  params : Params
  /-- The port cycles still to come, the present one first; past its end the host makes no access. -/
  host : List PortCycle
  /-- The levels of `dq_i` still to come, the present one first; past its end each is a free draw. -/
  line : List Bool
  /-- The clock cycles passed: the number of the present free draw. -/
  cycle : Nat
  /-- What `rdata` showed in the cycle just ended (20_memory.md R60). -/
  rdata : Byte
  deriving DecidableEq, Repr

/-- Why a step stops with a fault: never. The SWPE has no trap (60_exceptions.md R190), no line condition is a fault
(60_exceptions.md R200), and 93_implementation_defined.md treats no entry as a fault. Log 9. -/
inductive Fault where
  deriving DecidableEq, Repr

/-- Why a step is refused. -/
inductive Refusal where
  /-- The dispatcher's answer for a command without a meaning; every command has one, so no arm uses it. Safe. -/
  | notModelled (mnemonic : String)
  /-- Raised by the clock cycle when the parameter set is illegal: such an instance does not exist, and a model refuses it
  (00_scope.md R7, 93_implementation_defined.md S2). Safe. Log 5. -/
  | illegalParameters
  deriving DecidableEq, Repr

/-- The state right after the block reset (10_state.md R44) of an instance with parameters `p`, before any port cycle. -/
def State.resetOf (p : Params) : State where
  done := false
  present := false
  pfail := .none
  rbit := false
  puen := true
  crcrx := true
  txdata := 0x00#8
  rxdata := 0x00#8
  crc := 0x00#8
  ebusy := false
  ersvd := false
  sync := List.replicate p.syncStages true
  preCnt := 0
  op := .idle
  ph := .none
  timer := 0
  pcnt := 0
  bitcnt := 0#3
  shreg := 0x00#8
  params := p
  host := []
  line := []
  cycle := 0
  rdata := 0x00#8

/-- The machine right after reset: 10_state.md R44, the default parameters of 00_scope.md R6 and the OPEN CLK_PER_TICK (log 4). -/
def State.reset : State := State.resetOf Params.ofReset

end Sys2Proof.Machine
end

