-- ==== Sys2Proof/Machine/Operands.lean ====
section
/-! DEFINITION. The host port's operands: the register map (10_state.md R25), the port cycle of the present clock cycle, the
level of the line, and the one data operand of a command, TXDATA (30_encoding.md R82). -/

namespace Sys2Proof.Machine

/-- The registers by name (10_state.md R25). -/
inductive Reg where
  | cmd
  | status
  | ctrl
  | txdata
  | rxdata
  | crc
  | err
  | reserved
  deriving DecidableEq, Repr

/-- The register at an address (10_state.md R25). -/
def regAt (a : Addr) : Reg :=
  match a.toNat with
  | 0 => .cmd
  | 1 => .status
  | 2 => .ctrl
  | 3 => .txdata
  | 4 => .rxdata
  | 5 => .crc
  | 6 => .err
  | _ => .reserved

/-- The address of a register (30_encoding.md R87). -/
def regAddr : Reg → Addr
  | .cmd => 0#3
  | .status => 1#3
  | .ctrl => 2#3
  | .txdata => 3#3
  | .rxdata => 4#3
  | .crc => 5#3
  | .err => 6#3
  | .reserved => 7#3

/-- A cycle with no access (30_encoding.md R88, `IDLE`). -/
def PortCycle.quiet : PortCycle := ⟨true, 0#3, false, false, 0x00#8⟩

/-- The write `(W, reg, v)` (30_encoding.md R87, R88). -/
def PortCycle.write (r : Reg) (v : Byte) : PortCycle := ⟨true, regAddr r, true, false, v⟩

/-- The read `(R, reg)` (30_encoding.md R87, R88). -/
def PortCycle.read (r : Reg) : PortCycle := ⟨true, regAddr r, false, true, 0x00#8⟩

/-- A cycle in which `rst_n` is low (70_reset_and_hazards.md R210). -/
def PortCycle.inReset : PortCycle := ⟨false, 0#3, false, false, 0x00#8⟩

/-- The statement `<MNEMONIC>` of a host program: the command's byte written to CMD (30_encoding.md R89). -/
def PortCycle.command (i : Instr) : PortCycle := PortCycle.write .cmd (encode i)

/-- The port inputs of the present clock cycle. -/
def State.port (s : State) : PortCycle := s.host.headD PortCycle.quiet

/-- The level of `dq_i` in the present clock cycle: an input, never computed (10_state.md R34). -/
def State.dqI (s : State) : Bool := s.line.headD (Config.lineLevel s.cycle)

/-- The byte the host writes to CMD in this cycle, if it writes one while `rst_n` is high (30_encoding.md R80, 20_memory.md R60). -/
def State.commandByte (s : State) : Option Byte :=
  if s.port.rstN && s.port.we && regAt s.port.addr == .cmd then some s.port.wdata else none

/-- The data operand of WRITE_BYTE and CRC_FEED (30_encoding.md R82). -/
def State.operand (s : State) : Byte := s.txdata

end Sys2Proof.Machine
end

