-- ==== Sys2Proof/Machine/Ops.lean ====
section
/-! DEFINITION. The named operations of the engine: tick and sample, the phase table, Enter, StartPresence, complete(), command
acceptance and its two rejections, and the block reset. -/

namespace Sys2Proof.Machine

/-- BUSY: a timed command is in progress (10_state.md R27, R37). -/
def State.busy (s : State) : Bool := decide (s.op ≠ .idle)

/-- The tick (40_engine_timing.md R101). -/
def State.tick (s : State) : Bool := decide (s.preCnt = s.params.clkPerTick - 1)

/-- `sample()`: the last stage of the synchronizer (10_state.md R35, 40_engine_timing.md R110). -/
def State.sample (s : State) : Bool := s.sync.getLastD true

/-- `drvOf`, the driver column of the phase table (40_engine_timing.md R106, 10_state.md R33). -/
def drvOf : Phase → Drv
  | .none => .rel
  | .rstHi => .hi
  | .rstLo => .lo
  | .rstRel => .rel
  | .prWait => .rel
  | .prLow => .rel
  | .rdLo => .lo
  | .rdSmp => .rel
  | .rdRec => .rel
  | .wr1Lo => .lo
  | .wr1Rel => .rel
  | .wr0Lo => .lo
  | .wr0Rel => .rel

/-- The timed phases: those with a duration in the phase table (40_engine_timing.md R106). -/
def timed : Phase → Bool
  | .none => false
  | .prWait => false
  | .prLow => false
  | .rstHi => true
  | .rstLo => true
  | .rstRel => true
  | .rdLo => true
  | .rdSmp => true
  | .rdRec => true
  | .wr1Lo => true
  | .wr1Rel => true
  | .wr0Lo => true
  | .wr0Rel => true

/-- `dur`, the duration column of the phase table in ticks (40_engine_timing.md R106); 0 for a phase without one, which is never
entered by `enter`. -/
def dur (p : Params) : Phase → Nat
  | .none => 0
  | .prWait => 0
  | .prLow => 0
  | .rstHi => p.tRstH
  | .rstLo => p.tRstL
  | .rstRel => p.tRstR
  | .rdLo => p.tRl
  | .rdSmp => p.tRs
  | .rdRec => p.tRrec
  | .wr1Lo => p.tW1l
  | .wr1Rel => p.tW1r
  | .wr0Lo => p.tW0l
  | .wr0Rel => p.tW0r

/-- `Enter(ph)` (40_engine_timing.md R107). -/
def enter (ph : Phase) (s : State) : State := { s with ph := ph, timer := dur s.params ph }

/-- `StartPresence()` (40_engine_timing.md R107, 41_reset_presence.md R132). -/
def startPresence (s : State) : State := { s with ph := .prWait, pcnt := 0 }

/-- `complete()` (40_engine_timing.md R108). -/
def complete (s : State) : State := { s with op := .idle, ph := .none, done := true }

/-- What every accepted command does first: `DONE <- 0` (40_engine_timing.md R103), and the prescaler restarts
(40_engine_timing.md R102). -/
def accept (s : State) : State := { s with done := false, preCnt := 0 }

/-- A CMD write while BUSY = 1 is dropped with ERR.EBUSY (60_exceptions.md R194). -/
def flagBusy (s : State) : State := { s with ebusy := true }

/-- A reserved CMD byte while BUSY = 0 is dropped with ERR.ERSVD (60_exceptions.md R195). -/
def flagReserved (s : State) : State := { s with ersvd := true }

/-- `CommandWrite` of a command whose own effect at its accept edge is `effect` (40_engine_timing.md R103): BUSY is tested
first; an accepted command takes effect after `accept`. -/
def commandEdge (effect : State → State) (s : State) : Host.Outcome State Fault Refusal :=
  if s.busy then .next (flagBusy s) else .next (effect (accept s))

/-- `CommandWrite` of a reserved byte (40_engine_timing.md R103): BUSY is tested first (60_exceptions.md R197). -/
def reservedEdge (s : State) : Host.Outcome State Fault Refusal :=
  if s.busy then .next (flagBusy s) else .next (flagReserved s)

/-- The block reset: every element of 10_state.md R43 at its reset value (70_reset_and_hazards.md R210, 10_state.md R44). The
parameters and the environment are not the block's registers and stay. -/
def blockReset (s : State) : State :=
  { State.resetOf s.params with host := s.host, line := s.line, cycle := s.cycle, rdata := s.rdata }

/-- The registers as they stand in the present clock cycle: at their reset values when `rst_n` is low, from the moment it falls
(10_state.md R20, 70_reset_and_hazards.md R210; log 7). -/
def live (s : State) : State := if s.port.rstN then s else blockReset s

/-- The driver state (10_state.md R33). -/
def State.drv (s : State) : Drv := drvOf s.ph

/-- The pad output `dq_oe` (10_state.md R21, R33). -/
def State.dqOe (s : State) : Bool := decide (s.drv ≠ .rel)

/-- The pad output `dq_o` (10_state.md R21, R33). -/
def State.dqO (s : State) : Bool := decide (s.drv = .hi)

/-- The pad output `dq_pu` (10_state.md R21, R28). -/
def State.dqPu (s : State) : Bool := s.puen

end Sys2Proof.Machine
end

