-- ==== Sys2Proof/Machine/Flags.lean ====
section
/-! DEFINITION. The computed flags (10_state.md R27, R28), the readable byte of every register, HostRead (20_memory.md R62), and
the host's writes of CTRL, TXDATA and ERR (20_memory.md R63). -/

namespace Sys2Proof.Machine

/-- The two bits of STATUS.PFAIL (10_state.md R27). -/
def pfailBits : PFail → BitVec 2
  | .none => 0b00#2
  | .nofall => 0b01#2
  | .short => 0b10#2
  | .long => 0b11#2

/-- STATUS.CRCZ (10_state.md R27). -/
def State.crcz (s : State) : Bool := decide (s.crc = 0x00#8)

/-- STATUS.ERRS (10_state.md R27). -/
def State.errs (s : State) : Bool := s.ebusy || s.ersvd

/-- STATUS: ERRS, CRCZ, RBIT, PFAIL, PRESENT, DONE, BUSY from bit 7 down (20_memory.md R62). -/
def State.status (s : State) : Byte :=
  BitVec.ofBool s.errs ++ BitVec.ofBool s.crcz ++ BitVec.ofBool s.rbit ++ pfailBits s.pfail ++ BitVec.ofBool s.present
    ++ BitVec.ofBool s.done ++ BitVec.ofBool s.busy

/-- CTRL: LINE, five zeros, CRCRX, PUEN (20_memory.md R62, 10_state.md R28). -/
def State.ctrl (s : State) : Byte :=
  BitVec.ofBool s.sample ++ 0b00000#5 ++ BitVec.ofBool s.crcrx ++ BitVec.ofBool s.puen

/-- ERR: six zeros, ERSVD, EBUSY (20_memory.md R62, 10_state.md R32). -/
def State.err (s : State) : Byte := 0b000000#6 ++ BitVec.ofBool s.ersvd ++ BitVec.ofBool s.ebusy

/-- `HostRead(a)` (20_memory.md R62): it changes no state. -/
def hostRead (s : State) (a : Addr) : Byte :=
  match regAt a with
  | .cmd => 0x00#8
  | .status => s.status
  | .ctrl => s.ctrl
  | .txdata => s.txdata
  | .rxdata => s.rxdata
  | .crc => s.crc
  | .err => s.err
  | .reserved => 0x00#8

/-- The port output `rdata` of the present clock cycle: the state before the edge, 0x00 with `re` = 0, the reset state while
`rst_n` = 0 (20_memory.md R60). -/
def State.readPort (s : State) : Byte := if s.port.re then hostRead (live s) s.port.addr else 0x00#8

/-- The host's write of CTRL (20_memory.md R63, 10_state.md R28). -/
def writeCtrl (v : Byte) (s : State) : State := { s with puen := v.getLsbD 0, crcrx := v.getLsbD 1 }

/-- The host's write of TXDATA (20_memory.md R63, 10_state.md R29). -/
def writeTxdata (v : Byte) (s : State) : State := { s with txdata := v }

/-- The host's write of ERR, write 1 to clear (20_memory.md R63, 10_state.md R32). -/
def writeErr (v : Byte) (s : State) : State :=
  { s with ebusy := s.ebusy && !v.getLsbD 0, ersvd := s.ersvd && !v.getLsbD 1 }

end Sys2Proof.Machine
end

