-- ==== Sys2Proof/Machine/Crc8.lean ====
section
/-! DEFINITION. The CRC-8 function (43_crc8.md R170, R176) and its two commands, CRC_CLEAR and CRC_FEED (R172, R173). -/

namespace Sys2Proof.Machine

/-- One bit of `crc8_byte` (43_crc8.md R170). -/
def crc8Bit (r : Byte) (d : Bool) : Byte :=
  if (r.getLsbD 0 ^^ d) = true then ((r ^^^ 0x18#8) >>> 1) ||| 0x80#8 else r >>> 1

/-- `crc8_byte(c, d)`: the bits of `d` from bit 0 to bit 7 (43_crc8.md R170). -/
def crc8Byte (c d : Byte) : Byte := [0, 1, 2, 3, 4, 5, 6, 7].foldl (fun r i => crc8Bit r (d.getLsbD i)) c

/-- `crc8(init, q)` (43_crc8.md R176). -/
def crc8 (init : Byte) (q : List Byte) : Byte := q.foldl crc8Byte init

/-- `CRC_CLEAR_accept()` (43_crc8.md R172). -/
def crcClearAccept (s : State) : State := { s with crc := 0x00#8, done := true }

/-- `CRC_FEED_accept()` (43_crc8.md R173). -/
def crcFeedAccept (s : State) : State := { s with crc := crc8Byte s.crc s.operand, done := true }

/-- CRC_CLEAR written to CMD (43_crc8.md R172, 40_engine_timing.md R103). -/
def execCrcClear (s : State) : Host.Outcome State Fault Refusal := commandEdge crcClearAccept s

/-- CRC_FEED written to CMD (43_crc8.md R173, 40_engine_timing.md R103). -/
def execCrcFeed (s : State) : Host.Outcome State Fault Refusal := commandEdge crcFeedAccept s

end Sys2Proof.Machine
end

