-- ==== Sys2Proof/Machine/BitByte.lean ====
section
/-! DEFINITION. Bit-serial receive and transmit and the byte framer (42_bit_byte.md): READ_BIT, READ_BYTE, WRITE_BYTE. Each `exec`
is the command's effect at its accept edge; the slots that follow are the end actions below, which the clock cycle runs. -/

namespace Sys2Proof.Machine

/-- Enter the write slot of bit `b` (42_bit_byte.md R156, R157, R158). -/
def enterWriteSlot (b : Bool) (s : State) : State := if b = true then enter .wr1Lo s else enter .wr0Lo s

/-- `READ_BIT_accept()` (42_bit_byte.md R153). -/
def readBitAccept (s : State) : State := enter .rdLo { s with op := .readBit, bitcnt := 0#3 }

/-- `READ_BYTE_accept()` (42_bit_byte.md R154). -/
def readByteAccept (s : State) : State := enter .rdLo { s with op := .readByte, bitcnt := 0#3 }

/-- `WRITE_BYTE_accept()` (42_bit_byte.md R157). -/
def writeByteAccept (s : State) : State :=
  enterWriteSlot (s.operand.getLsbD 0) { s with op := .writeByte, bitcnt := 0#3, shreg := s.operand }

/-- READ_BIT written to CMD (42_bit_byte.md R153, 40_engine_timing.md R103). -/
def execReadBit (s : State) : Host.Outcome State Fault Refusal := commandEdge readBitAccept s

/-- READ_BYTE written to CMD (42_bit_byte.md R154, 40_engine_timing.md R103). -/
def execReadByte (s : State) : Host.Outcome State Fault Refusal := commandEdge readByteAccept s

/-- WRITE_BYTE written to CMD (42_bit_byte.md R159, R157, 40_engine_timing.md R103). -/
def execWriteByte (s : State) : Host.Outcome State Fault Refusal := commandEdge writeByteAccept s

/-- `{s, v[7:1]}`: a sample enters at bit 7, the rest move one place toward bit 0 (42_bit_byte.md R151, R152). -/
def shiftIn (level : Bool) (v : Byte) : Byte := BitVec.ofBool level ++ v.extractLsb' 1 7

/-- `ReadSample(s)`, the end of RD_SMP (42_bit_byte.md R151). -/
def readSample (level : Bool) (s : State) : State :=
  enter .rdRec { s with rbit := level, shreg := if s.op = .readByte then shiftIn level s.shreg else s.shreg }

/-- `ReadByteDone()` (42_bit_byte.md R155). -/
def readByteDone (s : State) : State :=
  complete { s with rxdata := s.shreg, crc := if s.crcrx = true then crc8Byte s.crc s.shreg else s.crc }

/-- `ReadSlotEnd()`, the end of RD_REC (42_bit_byte.md R150). -/
def readSlotEnd (s : State) : State :=
  if s.op = .readBit then complete s
  else if s.bitcnt = 7#3 then readByteDone s
  else enter .rdLo { s with bitcnt := s.bitcnt + 1#3 }

/-- `WriteSlotEnd()`, the end of WR1_REL and WR0_REL (42_bit_byte.md R158): the next bit is read before the shift. -/
def writeSlotEnd (s : State) : State :=
  if s.bitcnt = 7#3 then complete s
  else enterWriteSlot (s.shreg.getLsbD 1) { s with shreg := s.shreg >>> 1, bitcnt := s.bitcnt + 1#3 }

end Sys2Proof.Machine
end

