-- ==== Sys2Proof/Machine/Nop.lean ====
section
/-! DEFINITION. The command with no line activity: NOP (40_engine_timing.md R111). -/

namespace Sys2Proof.Machine

/-- `NOP_accept()` (40_engine_timing.md R111). -/
def nopAccept (s : State) : State := { s with done := true }

/-- NOP written to CMD (40_engine_timing.md R111, R103). -/
def execNop (s : State) : Host.Outcome State Fault Refusal := commandEdge nopAccept s

end Sys2Proof.Machine
end

