-- ==== Sys2Proof/Machine/Presence.lean ====
section
/-! DEFINITION. Reset pulse and presence detection (41_reset_presence.md): RESET, PRESENCE, RSTPRES. Each `exec` is the command's
effect at its accept edge; the ticks that follow are the tick operations below, which the clock cycle runs. -/

namespace Sys2Proof.Machine

/-- `PRESENT <- 0; PFAIL <- 0b00`, at the accept of PRESENCE and RSTPRES (41_reset_presence.md R132, R135). -/
def clearPresence (s : State) : State := { s with present := false, pfail := .none }

/-- `RESET_accept()` (41_reset_presence.md R131). -/
def resetAccept (s : State) : State := enter .rstHi { s with op := .reset }

/-- `PRESENCE_accept()` (41_reset_presence.md R132). -/
def presenceAccept (s : State) : State := startPresence { clearPresence s with op := .presence }

/-- `RSTPRES_accept()` (41_reset_presence.md R135). -/
def rstpresAccept (s : State) : State := enter .rstHi { clearPresence s with op := .rstpres }

/-- RESET written to CMD (41_reset_presence.md R131, 40_engine_timing.md R103). -/
def execReset (s : State) : Host.Outcome State Fault Refusal := commandEdge resetAccept s

/-- PRESENCE written to CMD (41_reset_presence.md R132, 40_engine_timing.md R103). -/
def execPresence (s : State) : Host.Outcome State Fault Refusal := commandEdge presenceAccept s

/-- RSTPRES written to CMD (41_reset_presence.md R135, 40_engine_timing.md R103). -/
def execRstpres (s : State) : Host.Outcome State Fault Refusal := commandEdge rstpresAccept s

/-- `EndPhase(RST_REL)`: RESET completes, RSTPRES goes on to the presence check (41_reset_presence.md R131, R135). -/
def resetSequenceEnd (s : State) : State := if s.op = .reset then complete s else startPresence s

/-- `PresenceWaitTick(s)`: poll number `pcnt + 1` of the wait for the falling edge (41_reset_presence.md R133). -/
def presenceWaitTick (level : Bool) (s : State) : State :=
  if level = false then { s with ph := .prLow, pcnt := 1 }
  else if s.params.pWaitMax ≤ s.pcnt + 1 then complete { s with pfail := .nofall }
  else { s with pcnt := s.pcnt + 1 }

/-- `PresenceLowTick(s)`: one poll that measures the low pulse (41_reset_presence.md R134). -/
def presenceLowTick (level : Bool) (s : State) : State :=
  if level = true then
    if s.pcnt < s.params.pLowMin then complete { s with pfail := .short } else complete { s with present := true }
  else if s.params.pLowMax < s.pcnt + 1 then complete { s with pfail := .long }
  else { s with pcnt := s.pcnt + 1 }

end Sys2Proof.Machine
end

