-- ==== Sys2Proof/Machine/Dispatch.lean ====
section
/-! DEFINITION. The dispatcher: the effect of each command written to CMD, at that write's clock edge (40_engine_timing.md R103). -/

namespace Sys2Proof.Machine

def exec (i : Instr) (s : State) : Host.Outcome State Fault Refusal :=
  match i with
  | .nop => Sys2Proof.Machine.execNop s
  | .reset => Sys2Proof.Machine.execReset s
  | .presence => Sys2Proof.Machine.execPresence s
  | .rstpres => Sys2Proof.Machine.execRstpres s
  | .readBit => Sys2Proof.Machine.execReadBit s
  | .readByte => Sys2Proof.Machine.execReadByte s
  | .writeByte => Sys2Proof.Machine.execWriteByte s
  | .crcClear => Sys2Proof.Machine.execCrcClear s
  | .crcFeed => Sys2Proof.Machine.execCrcFeed s

end Sys2Proof.Machine
end

