-- ==== Sys2Proof/Machine/Edge.lean ====
section
/-! DEFINITION. One clock cycle (40_engine_timing.md R100): the host's write, the engine's tick, the prescaler, the synchronizer,
composed so that each reads the state before the edge (R105), and the block reset (70_reset_and_hazards.md R210). -/

namespace Sys2Proof.Machine

/-- `EndPhase(ph, s)`, the end action column of the phase table (40_engine_timing.md R106). The phases that do not end by a timer
have none. -/
def endPhase (level : Bool) (s : State) : State :=
  match s.ph with
  | .none => s
  | .rstHi => enter .rstLo s
  | .rstLo => enter .rstRel s
  | .rstRel => resetSequenceEnd s
  | .prWait => s
  | .prLow => s
  | .rdLo => enter .rdSmp s
  | .rdSmp => readSample level s
  | .rdRec => readSlotEnd s
  | .wr1Lo => enter .wr1Rel s
  | .wr1Rel => writeSlotEnd s
  | .wr0Lo => enter .wr0Rel s
  | .wr0Rel => writeSlotEnd s

/-- The tick of a timed phase: count down, or end the phase (40_engine_timing.md R104, R109). -/
def timedTick (level : Bool) (s : State) : State :=
  if 1 < s.timer then { s with timer := s.timer - 1 } else endPhase level s

/-- `TickStep()` (40_engine_timing.md R104), with `level` the sample of 40_engine_timing.md R110. -/
def tickStep (level : Bool) (s : State) : State :=
  match s.ph with
  | .prWait => presenceWaitTick level s
  | .prLow => presenceLowTick level s
  | .none => timedTick level s
  | .rstHi => timedTick level s
  | .rstLo => timedTick level s
  | .rstRel => timedTick level s
  | .rdLo => timedTick level s
  | .rdSmp => timedTick level s
  | .rdRec => timedTick level s
  | .wr1Lo => timedTick level s
  | .wr1Rel => timedTick level s
  | .wr0Lo => timedTick level s
  | .wr0Rel => timedTick level s

/-- `CommandWrite(c)` (40_engine_timing.md R103): the decoder, then the command's own meaning or the reserved byte's. -/
def commandWrite (c : Byte) (s : State) : Host.Outcome State Fault Refusal :=
  match decode c with
  | .command i => exec i s
  | .reservedNibble => reservedEdge s
  | .reservedOpcode => reservedEdge s

/-- `HostWrite(a, v)` (20_memory.md R63). -/
def hostWrite (a : Addr) (v : Byte) (s : State) : Host.Outcome State Fault Refusal :=
  match regAt a with
  | .cmd => commandWrite v s
  | .status => .next s
  | .ctrl => .next (writeCtrl v s)
  | .txdata => .next (writeTxdata v s)
  | .rxdata => .next s
  | .crc => .next s
  | .err => .next (writeErr v s)
  | .reserved => .next s

/-- The host's access at the edge (40_engine_timing.md R100 item 2). -/
def hostAccess (s : State) : Host.Outcome State Fault Refusal :=
  if s.port.we then hostWrite s.port.addr s.port.wdata s else .next s

/-- Whether `CommandWrite` accepts a command at this edge (40_engine_timing.md R102, R103). -/
def accepts (s : State) : Bool :=
  match s.commandByte with
  | some c => !s.busy && (decodedInstr (decode c)).isSome
  | none => false

/-- The registers `TickStep` writes taken from `u`, all others from `t` (40_engine_timing.md R105: it never writes CTRL, TXDATA or
ERR). -/
def mergeTick (t u : State) : State :=
  { t with
    done := u.done, present := u.present, pfail := u.pfail, rbit := u.rbit, rxdata := u.rxdata, crc := u.crc, op := u.op,
    ph := u.ph, timer := u.timer, pcnt := u.pcnt, bitcnt := u.bitcnt, shreg := u.shreg }

/-- The engine's part of the edge (40_engine_timing.md R100 item 3): `s` is the state before the edge, `t` what the host's access
makes of it. -/
def engineTick (s t : State) : State := if s.busy && s.tick then mergeTick t (tickStep s.sample s) else t

/-- The prescaler's part of the edge (40_engine_timing.md R102, R100 item 4); an accepted command has restarted it in `t`. -/
def prescale (s t : State) : State :=
  if accepts s then t else { t with preCnt := if s.tick then 0 else s.preCnt + 1 }

/-- The synchronizer's part of the edge (10_state.md R35, 40_engine_timing.md R100 item 1). -/
def shiftSync (s t : State) : State := { t with sync := s.dqI :: s.sync.dropLast }

/-- The environment's part of the cycle: its inputs are used up, and `rdata` is what the port showed in it. -/
def passCycle (s t : State) : State :=
  { t with host := s.host.tail, line := s.line.tail, cycle := s.cycle + 1, rdata := s.readPort }

/-- What an edge adds to the host's access `t` made in state `s` (40_engine_timing.md R100). -/
def finishEdge (s t : State) : State := passCycle s (shiftSync s (prescale s (engineTick s t)))

/-- A rising edge of `clk` with `rst_n` = 1 (40_engine_timing.md R100). -/
def clockEdge (s : State) : Host.Outcome State Fault Refusal :=
  match hostAccess s with
  | .next t => .next (finishEdge s t)
  | .fault r => .fault r
  | .refused r => .refused r

/-- One clock cycle: an edge, or a cycle held in reset (70_reset_and_hazards.md R210), of a legal instance (00_scope.md R7). -/
def clockCycle (s : State) : Host.Outcome State Fault Refusal :=
  if s.params.legal then
    if s.port.rstN then clockEdge s else .next (passCycle s (blockReset s))
  else .refused .illegalParameters

/-- `s` with a write of the byte with table bits `w` to CMD as the host's next access. -/
def pushCommand (nbits w : Nat) (s : State) : State :=
  { s with host := PortCycle.write .cmd (BitVec.ofNat 8 (w % 2 ^ nbits)) :: s.host }

end Sys2Proof.Machine
end

