-- ==== Sys2Proof/Machine/Step.lean ====
section
/-! DEFINITION. The machine's step, one clock cycle (40_engine_timing.md R100), and the placing of a command where the next step
reads it. -/

namespace Sys2Proof.Machine

/-- One clock cycle. -/
def step (s : State) : Host.Outcome State Fault Refusal := Sys2Proof.Machine.clockCycle s

/-- `s` with the instruction of table bits `w` written to CMD in the next clock cycle. The SWPE fetches nothing: it executes one
command per host write to CMD (10_state.md R24; log 2). -/
def State.withFetchWord (s : State) (nbits w : Nat) : State := Sys2Proof.Machine.pushCommand nbits w s

end Sys2Proof.Machine
end

