-- ==== Sys2Proof/Safety.lean ====
section
/-! DEFINITION. What claims are stated in: the invariant of the machine, the run of several clock cycles, and the tick counts of
the commands (70_reset_and_hazards.md R224). -/

namespace Sys2Proof.Machine

/-- The phases of each command: the commands column of the phase table (40_engine_timing.md R106), and NONE for IDLE alone
(10_state.md R38). -/
def phaseOf : Op → Phase → Bool
  | .idle, ph => ph == .none
  | .reset, ph => [Phase.rstHi, .rstLo, .rstRel].contains ph
  | .presence, ph => [Phase.prWait, .prLow].contains ph
  | .rstpres, ph => [Phase.rstHi, .rstLo, .rstRel, .prWait, .prLow].contains ph
  | .readBit, ph => [Phase.rdLo, .rdSmp, .rdRec].contains ph
  | .readByte, ph => [Phase.rdLo, .rdSmp, .rdRec].contains ph
  | .writeByte, ph => [Phase.wr1Lo, .wr1Rel, .wr0Lo, .wr0Rel].contains ph

/-- The commands that write PRESENT and PFAIL (10_state.md R27). -/
def checksPresence (op : Op) : Bool := op == .presence || op == .rstpres

/-- The invariant: what holds at the block reset and is kept by every clock cycle of a legal instance. -/
structure Invariant (s : State) : Prop where
  /-- The instance exists (00_scope.md R7). -/
  legal : s.params.legal = true
  /-- The phase is one of the command's; NONE exactly when idle (10_state.md R38). -/
  phase : phaseOf s.op s.ph = true
  /-- The prescaler counts below CLK_PER_TICK (10_state.md R36). -/
  prescaler : s.preCnt < s.params.clkPerTick
  /-- The synchronizer has SYNC_STAGES stages (10_state.md R35). -/
  stages : s.sync.length = s.params.syncStages
  /-- In a timed phase the timer holds the ticks left, from the duration down to 1 (40_engine_timing.md R109). -/
  timerRuns : timed s.ph = true → 1 ≤ s.timer ∧ s.timer ≤ dur s.params s.ph
  /-- The timer fits in CNT_W bits (10_state.md R39). -/
  timerFits : s.timer ≤ s.params.cntMax
  /-- In PR_WAIT fewer than P_WAIT_MAX polls have been made (41_reset_presence.md R133). -/
  polls : s.ph = .prWait → s.pcnt < s.params.pWaitMax
  /-- In PR_LOW the low samples seen are at least one and at most P_LOW_MAX (41_reset_presence.md R134). -/
  lowSamples : s.ph = .prLow → 1 ≤ s.pcnt ∧ s.pcnt ≤ s.params.pLowMax
  /-- The presence counter fits in CNT_W bits (10_state.md R40). -/
  pcntFits : s.pcnt ≤ s.params.cntMax
  /-- READ_BIT does not advance the bit counter (10_state.md R41). -/
  oneBit : s.op = .readBit → s.bitcnt = 0#3
  /-- A command in progress has not completed: DONE is 0 while BUSY is 1 (10_state.md R27). -/
  notDone : s.busy = true → s.done = false
  /-- PRESENT and a failure cause never hold together (10_state.md R27). -/
  oneOutcome : s.present = true → s.pfail = .none
  /-- While a presence check runs, neither outcome is recorded (10_state.md R27). -/
  noOutcomeYet : checksPresence s.op = true → s.present = false ∧ s.pfail = .none
  /-- A write slot's phases are those of the bit in `shreg[0]` (10_state.md R42, 42_bit_byte.md R156). -/
  slotBit : s.op = .writeByte → (s.shreg.getLsbD 0 = true ↔ s.ph = .wr1Lo ∨ s.ph = .wr1Rel)

/-- The registers the engine writes: those of `TickStep` (40_engine_timing.md R105), for claims about them all at once. -/
structure Engine where
  op : Op
  ph : Phase
  timer : Nat
  pcnt : Nat
  bitcnt : BitVec 3
  shreg : Byte
  done : Bool
  present : Bool
  pfail : PFail
  rbit : Bool
  rxdata : Byte
  crc : Byte
  deriving DecidableEq, Repr

/-- The engine's registers of a state. -/
def State.engine (s : State) : Engine :=
  ⟨s.op, s.ph, s.timer, s.pcnt, s.bitcnt, s.shreg, s.done, s.present, s.pfail, s.rbit, s.rxdata, s.crc⟩

/-- The engine's registers after `complete()` (40_engine_timing.md R108). -/
def Engine.completed (e : Engine) : Engine := ⟨.idle, .none, e.timer, e.pcnt, e.bitcnt, e.shreg, true, e.present, e.pfail, e.rbit, e.rxdata, e.crc⟩

/-- The present cycle is an edge at which a running command of a legal instance makes a tick (40_engine_timing.md R100 item 3). -/
def TickEdge (s : State) : Prop :=
  s.params.legal = true ∧ s.port.rstN = true ∧ s.op ≠ .idle ∧ s.preCnt = s.params.clkPerTick - 1

/-- The host writes `v` to register `r` at the edge of the present cycle. -/
def HostWrites (s : State) (r : Reg) (v : Byte) : Prop :=
  s.port.rstN = true ∧ s.port.we = true ∧ s.port.addr = regAddr r ∧ s.port.wdata = v

/-- `s` with another port cycle in place of the present one. -/
def withPort (c : PortCycle) (s : State) : State := { s with host := c :: s.host.tail }

/-- `s` with the present port cycle's write left out. -/
def withoutWrite (s : State) : State := withPort { s.port with we := false } s

/-- `s` with the present port cycle's read left out. -/
def withoutRead (s : State) : State := withPort { s.port with re := false } s

/-- `n` clock cycles from `s` end in `t`. -/
def Runs (n : Nat) (s t : State) : Prop := Host.Core.run Sys2Proof.core n s = Host.Outcome.next t

/-- None of the next `n` clock cycles holds the block in reset. -/
def ResetFree (n : Nat) (s : State) : Prop := ∀ c ∈ s.host.take n, c.rstN = true

/-- After `n` clock cycles from `s` the sample is `b`: the level the engine would read at the edge that ends cycle `n`. -/
def SampleAt (n : Nat) (s : State) (b : Bool) : Prop := ∃ u, Runs n s u ∧ u.sample = b

/-- The command `i` is accepted at the edge of the present cycle: the instance is legal and in a state of the invariant, idle,
and the host writes `i`'s byte to CMD. -/
def Accepted (i : Instr) (s : State) : Prop := Invariant s ∧ s.op = .idle ∧ s.commandByte = some (encode i)

end Sys2Proof.Machine

namespace Sys2Proof

/-- T_RST (41_reset_presence.md R130). -/
def Params.tRst (p : Params) : Nat := p.tRstH + p.tRstL + p.tRstR

/-- T_RSLOT (42_bit_byte.md R150). -/
def Params.tRslot (p : Params) : Nat := p.tRl + p.tRs + p.tRrec

/-- The low ticks of the write slot of bit `b` (42_bit_byte.md R159). -/
def Params.lowTicks (p : Params) (b : Bool) : Nat := if b then p.tW1l else p.tW0l

/-- The ticks of the write slot of bit `b` (42_bit_byte.md R159). -/
def Params.writeSlot (p : Params) (b : Bool) : Nat := if b then p.tW1l + p.tW1r else p.tW0l + p.tW0r

/-- `S_i`, the tick at which slot `i` of a WRITE_BYTE of `d` starts (42_bit_byte.md R159). -/
def Params.slotStart (p : Params) (d : Byte) : Nat → Nat
  | 0 => 0
  | i + 1 => p.slotStart d i + p.writeSlot (d.getLsbD i)

/-- A bound on the ticks of every command, the longest durations of 70_reset_and_hazards.md R224 added up. -/
def Params.commandBound (p : Params) : Nat :=
  p.tRst + p.pWaitMax + p.pLowMax + 8 * p.tRslot + 8 * (p.tW1l + p.tW1r + p.tW0l + p.tW0r)

end Sys2Proof
end

