-- ==== Sys2Proof/Certificates/Slice0/Obligations.lean ====
section
/-! DEFINITION. The statements for the provers, from the numbered rules of spec/. -/

open Sys2Proof Sys2Proof.Machine

/-! ## Encoding (30_encoding.md) -/

/-- 30_encoding.md R85: the decoder on every byte. The words are those of the opcode map. -/
def Obligations.DecoderFollowsTheOpcodeMap : Prop :=
  decode 0b00000000#8 = .command .nop ∧ decode 0b00000001#8 = .command .reset ∧ decode 0b00000010#8 = .command .presence ∧
  decode 0b00000011#8 = .command .rstpres ∧ decode 0b00000100#8 = .command .readBit ∧ decode 0b00000101#8 = .command .readByte ∧
  decode 0b00000110#8 = .command .writeByte ∧ decode 0b00000111#8 = .command .crcClear ∧
  decode 0b00001000#8 = .command .crcFeed ∧
  ∀ c : Byte, 9 ≤ c.toNat → decode c = if c.toNat < 16 then .reservedOpcode else .reservedNibble

/-- Section 2 of 30_encoding.md (an inference of the spec): each command's byte decodes to it, and no other byte does. -/
def Obligations.DecodeAndEncodeAgree : Prop := ∀ (c : Byte) (i : Instr), decode c = .command i ↔ c = encode i

/-! ## Reset (10_state.md R44, 70_reset_and_hazards.md) -/

/-- Section 5 of 10_state.md: the reset value of every register, for every parameter set; `State.reset` is that state of the default
parameters with the OPEN CLK_PER_TICK (the parameters, the empty inputs and the OPEN value are the model's, logs 2, 3, 4). -/
def Obligations.ResetValues : Prop :=
  State.reset = State.resetOf Params.ofReset ∧
  ∀ p : Params,
    let s := State.resetOf p
    s.done = false ∧ s.present = false ∧ pfailBits s.pfail = 0b00#2 ∧ s.rbit = false ∧ s.puen = true ∧ s.crcrx = true ∧
    s.txdata = 0x00#8 ∧ s.rxdata = 0x00#8 ∧ s.crc = 0x00#8 ∧ s.ebusy = false ∧ s.ersvd = false ∧
    s.sync.length = p.syncStages ∧ (∀ b ∈ s.sync, b = true) ∧ s.preCnt = 0 ∧ s.op = .idle ∧ s.ph = .none ∧ s.timer = 0 ∧
    s.pcnt = 0 ∧ s.bitcnt = 0#3 ∧ s.shreg = 0x00#8 ∧ s.params = p ∧ s.dqOe = false ∧ s.dqPu = true

/-- Section 5 of 10_state.md (an inference of the spec): what the host reads after reset, and CTRL once the line is low. -/
def Obligations.ResetReads : Prop :=
  ∀ p : Params, p.legal = true →
    let s := State.resetOf p
    hostRead s 0#3 = 0x00#8 ∧ hostRead s 1#3 = 0x40#8 ∧ hostRead s 2#3 = 0x83#8 ∧ hostRead s 3#3 = 0x00#8 ∧
    hostRead s 4#3 = 0x00#8 ∧ hostRead s 5#3 = 0x00#8 ∧ hostRead s 6#3 = 0x00#8 ∧ hostRead s 7#3 = 0x00#8 ∧
    ∀ t : State, t.puen = s.puen → t.crcrx = s.crcrx → t.sample = false → hostRead t 2#3 = 0x03#8

/-- Section 1 of 70_reset_and_hazards.md, in whole clock cycles (the model's choice, log 7; the inputs and `rdata` are the model's,
logs 2, 3, 6): a cycle with `rst_n` = 0 holds every register at its reset value; the host's write is ignored, its read returns the
reset state, the line is released and the pull-up enabled during the cycle. -/
def Obligations.BlockResetHoldsResetValues : Prop :=
  ∀ s : State, s.params.legal = true → s.port.rstN = false →
    step s = .next { State.resetOf s.params with
      host := s.host.tail, line := s.line.tail, cycle := s.cycle + 1,
      rdata := if s.port.re then hostRead (State.resetOf s.params) s.port.addr else 0x00#8 } ∧
    (live s).dqOe = false ∧ (live s).dqPu = true

/-- 00_scope.md R7: the six constraints, and the refusal of a parameter set that breaks one; the defaults satisfy them with every
CLK_PER_TICK ≥ 1. -/
def Obligations.IllegalParametersAreRefused : Prop :=
  (∀ s : State, step s = .refused .illegalParameters ↔
    ¬ ((1 ≤ s.params.clkPerTick ∧ 1 ≤ s.params.syncStages) ∧
      ((∀ t ∈ [s.params.tRstH, s.params.tRstL, s.params.tRstR, s.params.tRl, s.params.tRs, s.params.tRrec, s.params.tW1l,
          s.params.tW1r, s.params.tW0l, s.params.tW0r], 1 ≤ t ∧ t ≤ 2 ^ s.params.cntW - 1) ∧
        1 ≤ s.params.pWaitMax ∧ 1 ≤ s.params.pLowMin) ∧
      s.params.pLowMin ≤ s.params.pLowMax ∧
      (s.params.pWaitMax ≤ 2 ^ s.params.cntW - 1 ∧ s.params.pLowMax + 1 ≤ 2 ^ s.params.cntW - 1) ∧
      s.params.tW1l < s.params.tW0l ∧
      (s.params.tRstL > s.params.tW0l + s.params.tW0r ∧ s.params.tRstL > s.params.tW1l + s.params.tW1r ∧
        s.params.tRstL > s.params.tRl + s.params.tRs + s.params.tRrec))) ∧
  ∀ k : Nat, 1 ≤ k → (Params.nominal k).legal = true

/-- Sections 1 and 2 of 60_exceptions.md: no trap, no fault, no stuck state; a legal instance steps from every state, on every host
access and every line level. -/
def Obligations.LegalInstanceNeverStops : Prop :=
  ∀ s : State, s.params.legal = true → ∃ t, step s = .next t ∧ t.params = s.params

/-! ## The clock edge (40_engine_timing.md) -/

/-- Section 1 of 30_encoding.md, section 2 of 40_engine_timing.md: a byte written to CMD that decodes to `i` makes the step run
`exec i`, on the state before the edge; around it the step adds what every edge adds (`finishEdge`: the engine's tick, the
prescaler, the synchronizer), and the cycle's inputs are used up (the model's own fields, logs 1, 2, 3). -/
def Obligations.StepRunsTheDecodedCommand : Prop :=
  ∀ (s : State) (c : Byte) (i : Instr), s.params.legal = true → HostWrites s .cmd c → decode c = .command i →
    ∃ t u, exec i s = .next t ∧ step s = .next u ∧ u = finishEdge s t ∧ u.host = s.host.tail ∧ u.line = s.line.tail ∧
      u.cycle = s.cycle + 1

/-- 40_engine_timing.md R100 and R102: what one edge does to each register; `t` is what the host's write makes of the state before
the edge. -/
def Obligations.ClockEdgeComposition : Prop :=
  ∀ s : State, s.params.legal = true → s.port.rstN = true →
    ∃ t u, (s.port.we = true → hostWrite s.port.addr s.port.wdata s = .next t) ∧ (s.port.we = false → t = s) ∧
      step s = .next u ∧
      u.sync = s.dqI :: s.sync.dropLast ∧
      u.engine = (if s.op ≠ .idle ∧ s.preCnt = s.params.clkPerTick - 1 then (tickStep s.sample s).engine else t.engine) ∧
      ((∃ c i, HostWrites s .cmd c ∧ s.op = .idle ∧ decode c = .command i) → u.preCnt = 0) ∧
      ((¬ ∃ c i, HostWrites s .cmd c ∧ s.op = .idle ∧ decode c = .command i) →
        u.preCnt = if s.preCnt = s.params.clkPerTick - 1 then 0 else s.preCnt + 1) ∧
      u.puen = t.puen ∧ u.crcrx = t.crcrx ∧ u.txdata = t.txdata ∧ u.ebusy = t.ebusy ∧ u.ersvd = t.ersvd ∧
      u.params = s.params

/-- 10_state.md R35: the synchronizer's shift at every edge, `sample()` its last stage before the edge, and its reset value. -/
def Obligations.SynchronizerShifts : Prop :=
  (∀ s : State, Invariant s → s.port.rstN = true →
    (∀ d, s.sample = s.sync.getD (s.params.syncStages - 1) d) ∧
    ∃ t, step s = .next t ∧ t.sync.length = s.params.syncStages ∧ (∀ d, t.sync.getD 0 d = s.dqI) ∧
      ∀ k d, 1 ≤ k → k < s.params.syncStages → t.sync.getD k d = s.sync.getD (k - 1) d) ∧
  (∀ p : Params, p.legal = true → (State.resetOf p).sync = List.replicate p.syncStages true)

/-- Section 3 of 70_reset_and_hazards.md and section 3 of 40_engine_timing.md: without a block reset the sample shows the level
`dq_i` had SYNC_STAGES cycles earlier. -/
def Obligations.SampleIsTheLevelSyncStagesEarlier : Prop :=
  ∀ (s : State) (n : Nat), Invariant s → ResetFree (n + s.params.syncStages) s →
    ∃ u t, Runs n s u ∧ Runs (n + s.params.syncStages) s t ∧ t.sample = u.dqI

/-- 40_engine_timing.md R104: the tick of a phase that is not at its end, and of one that is. -/
def Obligations.TickStepCountsOrEndsThePhase : Prop :=
  ∀ s : State, TickEdge s →
    ∃ t, step s = .next t ∧
      (s.ph = .prWait → t.engine = (presenceWaitTick s.sample s).engine) ∧
      (s.ph = .prLow → t.engine = (presenceLowTick s.sample s).engine) ∧
      (s.ph ≠ .prWait → s.ph ≠ .prLow → 1 < s.timer → t.engine = { s.engine with timer := s.timer - 1 }) ∧
      (s.ph ≠ .prWait → s.ph ≠ .prLow → ¬ 1 < s.timer → t.engine = (endPhase s.sample s).engine)

/-- Section 3 of 40_engine_timing.md: the driver, the duration and the end action of every phase but the ends of RD_SMP, RD_REC, WR1_REL
and WR0_REL and the presence polls, which are the statements that follow. -/
def Obligations.PhaseTable : Prop :=
  (∀ p : Params,
    [Phase.none, .rstHi, .rstLo, .rstRel, .prWait, .prLow, .rdLo, .rdSmp, .rdRec, .wr1Lo, .wr1Rel, .wr0Lo, .wr0Rel].map drvOf =
      [.rel, .hi, .lo, .rel, .rel, .rel, .lo, .rel, .rel, .lo, .rel, .lo, .rel] ∧
    [Phase.rstHi, .rstLo, .rstRel, .rdLo, .rdSmp, .rdRec, .wr1Lo, .wr1Rel, .wr0Lo, .wr0Rel].map (dur p) =
      [p.tRstH, p.tRstL, p.tRstR, p.tRl, p.tRs, p.tRrec, p.tW1l, p.tW1r, p.tW0l, p.tW0r]) ∧
  ∀ s : State, TickEdge s → s.timer = 1 →
    ∃ t, step s = .next t ∧
      (s.ph = .rstHi → t.engine = { s.engine with ph := .rstLo, timer := s.params.tRstL }) ∧
      (s.ph = .rstLo → t.engine = { s.engine with ph := .rstRel, timer := s.params.tRstR }) ∧
      (s.ph = .rstRel → s.op = .reset → t.engine = s.engine.completed) ∧
      (s.ph = .rstRel → s.op = .rstpres → t.engine = { s.engine with ph := .prWait, pcnt := 0 }) ∧
      (s.ph = .rdLo → t.engine = { s.engine with ph := .rdSmp, timer := s.params.tRs }) ∧
      (s.ph = .wr1Lo → t.engine = { s.engine with ph := .wr1Rel, timer := s.params.tW1r }) ∧
      (s.ph = .wr0Lo → t.engine = { s.engine with ph := .wr0Rel, timer := s.params.tW0r })

/-- Section 3 of 40_engine_timing.md: every completion edge frees the engine, sets DONE, releases the line and keeps the hidden
counters. -/
def Obligations.CompletionReleasesTheLine : Prop :=
  ∀ s t : State, Invariant s → s.port.rstN = true → s.busy = true → step s = .next t → t.busy = false →
    t.op = .idle ∧ t.ph = .none ∧ t.done = true ∧ t.dqOe = false ∧ t.timer = s.timer ∧ t.pcnt = s.pcnt ∧
    t.bitcnt = s.bitcnt ∧ t.shreg = s.shreg

/-- 10_state.md R33: the pads by the driver state; released when idle, driven high in RST_HI alone. -/
def Obligations.PadsFollowTheDriver : Prop :=
  ∀ s : State, s.dqOe = decide (drvOf s.ph ≠ .rel) ∧ s.dqO = decide (drvOf s.ph = .hi) ∧ drvOf .none = .rel ∧
    (s.drv = .hi ↔ s.ph = .rstHi) ∧ (Invariant s → s.op = .idle → s.dqOe = false)

/-! ## The commands at their accept edge -/

/-- 40_engine_timing.md R111: NOP. -/
def Obligations.NopSetsDone : Prop :=
  encode .nop = 0b00000000#8 ∧
  (∀ s : State, s.op = .idle → exec .nop s = .next { s with done := true, preCnt := 0 }) ∧
  (∀ s : State, s.op ≠ .idle → exec .nop s = .next { s with ebusy := true }) ∧
  (∀ p : Params, ∃ t, exec .nop (State.resetOf p) = .next t ∧ hostRead t 1#3 = 0x42#8)

/-- Section 1 of 41_reset_presence.md: RESET's accept edge. -/
def Obligations.ResetIsAccepted : Prop :=
  ∀ s : State, s.op = .idle →
    exec .reset s = .next { s with done := false, preCnt := 0, op := .reset, ph := .rstHi, timer := s.params.tRstH }

/-- Section 2 of 41_reset_presence.md: PRESENCE's accept edge. -/
def Obligations.PresenceIsAccepted : Prop :=
  ∀ s : State, s.op = .idle →
    exec .presence s = .next { s with
      done := false, preCnt := 0, op := .presence, present := false, pfail := .none, ph := .prWait, pcnt := 0 }

/-- Section 2 of 41_reset_presence.md: RSTPRES's accept edge. -/
def Obligations.RstpresIsAccepted : Prop :=
  ∀ s : State, s.op = .idle →
    exec .rstpres s = .next { s with
      done := false, preCnt := 0, op := .rstpres, present := false, pfail := .none, ph := .rstHi, timer := s.params.tRstH }

/-- Section 1 of 42_bit_byte.md: READ_BIT's accept edge. -/
def Obligations.ReadBitIsAccepted : Prop :=
  ∀ s : State, s.op = .idle →
    exec .readBit s = .next { s with
      done := false, preCnt := 0, op := .readBit, bitcnt := 0#3, ph := .rdLo, timer := s.params.tRl }

/-- Section 1 of 42_bit_byte.md: READ_BYTE's accept edge. -/
def Obligations.ReadByteIsAccepted : Prop :=
  ∀ s : State, s.op = .idle →
    exec .readByte s = .next { s with
      done := false, preCnt := 0, op := .readByte, bitcnt := 0#3, ph := .rdLo, timer := s.params.tRl }

/-- 42_bit_byte.md R157: WRITE_BYTE's accept edge; TXDATA is read once, here. -/
def Obligations.WriteByteIsAccepted : Prop :=
  (∀ s : State, s.op = .idle → s.txdata.getLsbD 0 = true →
    exec .writeByte s = .next { s with
      done := false, preCnt := 0, op := .writeByte, bitcnt := 0#3, shreg := s.txdata, ph := .wr1Lo, timer := s.params.tW1l }) ∧
  (∀ s : State, s.op = .idle → s.txdata.getLsbD 0 = false →
    exec .writeByte s = .next { s with
      done := false, preCnt := 0, op := .writeByte, bitcnt := 0#3, shreg := s.txdata, ph := .wr0Lo, timer := s.params.tW0l }) ∧
  ∀ (s t u : State) (v : Byte), s.params.legal = true → s.op ≠ .idle → HostWrites s .txdata v → step s = .next t →
    step (withoutWrite s) = .next u → t = { u with txdata := v }

/-- 43_crc8.md R172: CRC_CLEAR. -/
def Obligations.CrcClearClears : Prop :=
  encode .crcClear = 0b00000111#8 ∧
  (∀ s : State, s.op = .idle →
    ∃ t, exec .crcClear s = .next t ∧ t = { s with crc := 0x00#8, done := true, preCnt := 0 } ∧
      (hostRead t 1#3).getLsbD 6 = true ∧ (hostRead t 1#3).getLsbD 1 = true ∧ (hostRead t 1#3).getLsbD 0 = false) ∧
  ∀ s : State, s.op ≠ .idle → exec .crcClear s = .next { s with ebusy := true }

/-- 43_crc8.md R173: CRC_FEED. -/
def Obligations.CrcFeedFoldsTxdata : Prop :=
  encode .crcFeed = 0b00001000#8 ∧
  (∀ s : State, s.op = .idle →
    ∃ t, exec .crcFeed s = .next t ∧ t = { s with crc := crc8Byte s.crc s.txdata, done := true, preCnt := 0 } ∧
      (hostRead t 1#3).getLsbD 6 = decide (crc8Byte s.crc s.txdata = 0x00#8) ∧ (hostRead t 1#3).getLsbD 1 = true ∧
      (hostRead t 1#3).getLsbD 0 = false) ∧
  (∀ s : State, s.op ≠ .idle → exec .crcFeed s = .next { s with ebusy := true }) ∧
  crc8Byte 0x00#8 0x01#8 = 0x5E#8 ∧ crc8Byte 0x5E#8 0x5E#8 = 0x00#8 ∧ crc8Byte 0x00#8 0x00#8 = 0x00#8 ∧
  ∀ c : Byte, crc8Byte c c = 0x00#8

/-- The frame of every command's accept or drop edge, from the "Flags written" lines of 41_reset_presence.md, 42_bit_byte.md,
43_crc8.md and 40_engine_timing.md section 4: what `exec` leaves unchanged, command by command. -/
def Obligations.CommandFrame : Prop :=
  ∀ (i : Instr) (s t : State), exec i s = .next t →
    t.puen = s.puen ∧ t.crcrx = s.crcrx ∧ t.txdata = s.txdata ∧ t.rxdata = s.rxdata ∧ t.rbit = s.rbit ∧ t.ersvd = s.ersvd ∧
    t.sync = s.sync ∧ t.params = s.params ∧ t.host = s.host ∧ t.line = s.line ∧ t.cycle = s.cycle ∧ t.rdata = s.rdata ∧
    (s.busy = false → t.ebusy = s.ebusy) ∧
    (i ≠ .crcClear → i ≠ .crcFeed → t.crc = s.crc) ∧
    (i ≠ .presence → i ≠ .rstpres → t.present = s.present ∧ t.pfail = s.pfail) ∧
    (i ≠ .writeByte → t.shreg = s.shreg) ∧
    (i ≠ .readBit → i ≠ .readByte → i ≠ .writeByte → t.bitcnt = s.bitcnt) ∧
    (i ≠ .presence → t.pcnt = s.pcnt) ∧
    (i = .nop ∨ i = .crcClear ∨ i = .crcFeed → t.op = s.op ∧ t.ph = s.ph ∧ t.timer = s.timer)

/-! ## Rejections (60_exceptions.md) -/

/-- 60_exceptions.md R194: any CMD write while BUSY = 1 only sets EBUSY: against the same cycle with no write, nothing else
differs. EBUSY then stays until a write of ERR with bit 0 set (or a block reset). -/
def Obligations.BusyWriteIsDropped : Prop :=
  (∀ (s t u : State) (c : Byte), Invariant s → s.busy = true → HostWrites s .cmd c → step s = .next t →
    step (withoutWrite s) = .next u →
    t = { u with ebusy := true } ∧ ∀ r, commandWrite c s = .next r → r.done = false) ∧
  ∀ s t : State, s.ebusy = true → s.port.rstN = true → step s = .next t →
    (t.ebusy = false ↔ ∃ v, HostWrites s .err v ∧ v.getLsbD 0 = true)

/-- 60_exceptions.md R195: a reserved byte while BUSY = 0 only sets ERSVD: against the same cycle with no write, nothing else
differs, DONE and the prescaler included. ERSVD then stays until a write of ERR with bit 1 set (or a block reset). -/
def Obligations.ReservedByteIsDropped : Prop :=
  (∀ (s t u : State) (c : Byte), s.params.legal = true → s.busy = false → HostWrites s .cmd c → 9 ≤ c.toNat →
    step s = .next t → step (withoutWrite s) = .next u →
    t = { u with ersvd := true }) ∧
  ∀ s t : State, s.ersvd = true → s.port.rstN = true → step s = .next t →
    (t.ersvd = false ↔ ∃ v, HostWrites s .err v ∧ v.getLsbD 1 = true)

/-- 10_state.md R32: ERR is EBUSY and ERSVD, 0 at reset; at an edge they are set by their CMD writes, cleared by their ERR writes,
and otherwise keep their values. -/
def Obligations.ErrorFlagsAreSticky : Prop :=
  (∀ s : State, hostRead s 6#3 = 0b000000#6 ++ BitVec.ofBool s.ersvd ++ BitVec.ofBool s.ebusy) ∧
  (∀ p : Params, (State.resetOf p).ebusy = false ∧ (State.resetOf p).ersvd = false) ∧
  ∀ s t : State, s.port.rstN = true → step s = .next t →
    (t.ebusy = true ↔
      (∃ c, HostWrites s .cmd c ∧ s.busy = true) ∨ (s.ebusy = true ∧ ¬ ∃ v, HostWrites s .err v ∧ v.getLsbD 0 = true)) ∧
    (t.ersvd = true ↔
      (∃ c, HostWrites s .cmd c ∧ s.busy = false ∧ 9 ≤ c.toNat) ∨
        (s.ersvd = true ∧ ¬ ∃ v, HostWrites s .err v ∧ v.getLsbD 1 = true))

/-! ## Host access (20_memory.md) -/

/-- 20_memory.md R62: what the host reads, bit by bit; the two bits of PFAIL by its names are those of section 3 of 10_state.md. -/
def Obligations.HostReadValues : Prop :=
  (pfailBits .none = 0b00#2 ∧ pfailBits .nofall = 0b01#2 ∧ pfailBits .short = 0b10#2 ∧ pfailBits .long = 0b11#2) ∧
  ∀ s : State,
    hostRead s 0#3 = 0x00#8 ∧
    ((hostRead s 1#3).getLsbD 0 = decide (s.op ≠ .idle) ∧ (hostRead s 1#3).getLsbD 1 = s.done ∧
      (hostRead s 1#3).getLsbD 2 = s.present ∧ (hostRead s 1#3).extractLsb' 3 2 = pfailBits s.pfail ∧
      (hostRead s 1#3).getLsbD 5 = s.rbit ∧ (hostRead s 1#3).getLsbD 6 = decide (s.crc = 0x00#8) ∧
      (hostRead s 1#3).getLsbD 7 = (s.ebusy || s.ersvd)) ∧
    ((hostRead s 2#3).getLsbD 0 = s.puen ∧ (hostRead s 2#3).getLsbD 1 = s.crcrx ∧ (hostRead s 2#3).extractLsb' 2 5 = 0#5 ∧
      (hostRead s 2#3).getLsbD 7 = s.sample) ∧
    hostRead s 3#3 = s.txdata ∧ hostRead s 4#3 = s.rxdata ∧ hostRead s 5#3 = s.crc ∧
    ((hostRead s 6#3).getLsbD 0 = s.ebusy ∧ (hostRead s 6#3).getLsbD 1 = s.ersvd ∧ (hostRead s 6#3).extractLsb' 2 6 = 0#6) ∧
    hostRead s 7#3 = 0x00#8

/-- 20_memory.md R63: what a host write does, address by address; CMD goes to `CommandWrite`. -/
def Obligations.HostWriteEffects : Prop :=
  ∀ (s : State) (v : Byte),
    hostWrite 0#3 v s = commandWrite v s ∧ hostWrite 1#3 v s = .next s ∧
    hostWrite 2#3 v s = .next { s with puen := v.getLsbD 0, crcrx := v.getLsbD 1 } ∧
    hostWrite 3#3 v s = .next { s with txdata := v } ∧ hostWrite 4#3 v s = .next s ∧ hostWrite 5#3 v s = .next s ∧
    hostWrite 6#3 v s = .next { s with
      ebusy := if v.getLsbD 0 = true then false else s.ebusy, ersvd := if v.getLsbD 1 = true then false else s.ersvd } ∧
    hostWrite 7#3 v s = .next s

/-- Section 1 of 20_memory.md: what the port returns in a cycle, from the state before the edge, and that a cycle's read changes
nothing else: against the same cycle with `re` = 0 only `rdata` differs. The field `rdata` is the model's own, log 6. -/
def Obligations.ReadsHaveNoSideEffect : Prop :=
  ∀ s t : State, step s = .next t →
    t.rdata = (if s.port.re then hostRead (if s.port.rstN then s else State.resetOf s.params) s.port.addr else 0x00#8) ∧
    ∃ u, step (withoutRead s) = .next u ∧ t = { u with rdata := t.rdata }

/-- Section 3 of 10_state.md: CTRL and TXDATA change at an edge by their own host writes alone, whether or not BUSY is 1, and the
pad `dq_pu` is CTRL.PUEN in every state. -/
def Obligations.ControlRegistersAreTheHosts : Prop :=
  (∀ s : State, s.dqPu = s.puen) ∧
  ∀ s t : State, s.port.rstN = true → step s = .next t →
    (∀ v, HostWrites s .ctrl v → t.puen = v.getLsbD 0 ∧ t.crcrx = v.getLsbD 1) ∧
    ((¬ ∃ v, HostWrites s .ctrl v) → t.puen = s.puen ∧ t.crcrx = s.crcrx) ∧
    (∀ v, HostWrites s .txdata v → t.txdata = v) ∧ ((¬ ∃ v, HostWrites s .txdata v) → t.txdata = s.txdata)

/-- Section 2 of 40_engine_timing.md and section 3 of 70_reset_and_hazards.md, about one edge: while a command runs, the engine's
registers, the prescaler and the synchronizer are the same after the edge whatever the host accesses at it, a CMD write included.
(At a later edge a command can see a write of this one: READ_BYTE reads CTRL.CRCRX before its completion edge.) -/
def Obligations.OneBusyEdgeIsTheSameForEveryAccess : Prop :=
  ∀ (s t u : State) (c : PortCycle), s.params.legal = true → s.busy = true → s.port.rstN = true → c.rstN = true →
    step s = .next t → step (withPort c s) = .next u →
    t.engine = u.engine ∧ t.preCnt = u.preCnt ∧ t.sync = u.sync

/-! ## Presence detection (41_reset_presence.md) -/

/-- 41_reset_presence.md R133: one poll of the wait for the falling edge. -/
def Obligations.PresenceWaitPoll : Prop :=
  ∀ s : State, TickEdge s → s.ph = .prWait →
    ∃ t, step s = .next t ∧
      (s.sample = false → t.engine = { s.engine with ph := .prLow, pcnt := 1 }) ∧
      (s.sample = true → s.params.pWaitMax ≤ s.pcnt + 1 → t.engine = { s.engine.completed with pfail := .nofall } ∧
        pfailBits t.pfail = 0b01#2) ∧
      (s.sample = true → s.pcnt + 1 < s.params.pWaitMax → t.engine = { s.engine with pcnt := s.pcnt + 1 })

/-- 41_reset_presence.md R134: one poll of the measurement of the low pulse. -/
def Obligations.PresenceLowPoll : Prop :=
  ∀ s : State, TickEdge s → s.ph = .prLow →
    ∃ t, step s = .next t ∧
      (s.sample = true → s.pcnt < s.params.pLowMin → t.engine = { s.engine.completed with pfail := .short } ∧
        pfailBits t.pfail = 0b10#2) ∧
      (s.sample = true → s.params.pLowMin ≤ s.pcnt → t.engine = { s.engine.completed with present := true }) ∧
      (s.sample = false → s.params.pLowMax < s.pcnt + 1 → t.engine = { s.engine.completed with pfail := .long } ∧
        pfailBits t.pfail = 0b11#2) ∧
      (s.sample = false → s.pcnt + 1 ≤ s.params.pLowMax → t.engine = { s.engine with pcnt := s.pcnt + 1 })

/-- Section 2 of 60_exceptions.md: a presence check ends with exactly one outcome, and PRESENT and PFAIL change at an edge only
there and at the accept of PRESENCE or RSTPRES, which clear them. -/
def Obligations.PresenceEndsWithOneOutcome : Prop :=
  (∀ s t : State, Invariant s → s.port.rstN = true → checksPresence s.op = true → step s = .next t → t.busy = false →
    (t.present = true ↔ t.pfail = .none)) ∧
  ∀ s t : State, s.port.rstN = true → step s = .next t → (t.present ≠ s.present ∨ t.pfail ≠ s.pfail) →
    (s.busy = true ∧ (s.ph = .prWait ∨ s.ph = .prLow) ∧ t.busy = false) ∨
    (s.busy = false ∧ (HostWrites s .cmd 0x02#8 ∨ HostWrites s .cmd 0x03#8) ∧ t.present = false ∧ t.pfail = .none)

/-- Section 3 of 41_reset_presence.md (an inference of the spec): the outcome of a presence check as a function of its samples.
`s` is the state in which the presence part starts; poll `j` reads the sample at the edge `j`·CLK_PER_TICK cycles later. -/
def Obligations.PresenceOutcomeBySamples : Prop :=
  ∀ s : State, Invariant s → s.ph = .prWait → s.pcnt = 0 → s.preCnt = 0 →
    let k := s.params.clkPerTick
    ResetFree ((s.params.pWaitMax + s.params.pLowMax) * k) s →
    ((∀ j, 1 ≤ j → j ≤ s.params.pWaitMax → SampleAt (j * k - 1) s true) →
      ∃ t, Runs (s.params.pWaitMax * k) s t ∧ t.busy = false ∧ t.done = true ∧ t.present = false ∧ t.pfail = .nofall) ∧
    ∀ f, 1 ≤ f → f ≤ s.params.pWaitMax → (∀ j, 1 ≤ j → j < f → SampleAt (j * k - 1) s true) →
      (∀ l, 1 ≤ l → l ≤ s.params.pLowMax → (∀ j, f ≤ j → j < f + l → SampleAt (j * k - 1) s false) →
        SampleAt ((f + l) * k - 1) s true →
        ∃ t, Runs ((f + l) * k) s t ∧ t.busy = false ∧ t.done = true ∧
          (l < s.params.pLowMin → t.present = false ∧ t.pfail = .short) ∧
          (s.params.pLowMin ≤ l → t.present = true ∧ t.pfail = .none)) ∧
      ((∀ j, f ≤ j → j ≤ f + s.params.pLowMax → SampleAt (j * k - 1) s false) →
        ∃ t, Runs ((f + s.params.pLowMax) * k) s t ∧ t.busy = false ∧ t.done = true ∧ t.present = false ∧ t.pfail = .long)

/-- Section 1 of 41_reset_presence.md: RESET from its accept edge: BUSY throughout, the driver timeline of the reset pulse, and
completion T_RST ticks after accept with no result written. -/
def Obligations.ResetPulseTimeline : Prop :=
  ∀ s : State, Accepted .reset s →
    let k := s.params.clkPerTick
    let p := s.params
    ResetFree (1 + p.tRst * k) s →
    (∀ n, 1 ≤ n → n ≤ p.tRst * k → ∃ t, Runs n s t ∧ t.busy = true ∧ t.done = false ∧
      t.drv = if n ≤ p.tRstH * k then .hi else if n ≤ (p.tRstH + p.tRstL) * k then .lo else .rel) ∧
    ∃ t, Runs (1 + p.tRst * k) s t ∧ t.busy = false ∧ t.done = true ∧ t.drv = .rel ∧ t.present = s.present ∧
      t.pfail = s.pfail ∧ t.rbit = s.rbit ∧ t.rxdata = s.rxdata ∧ t.crc = s.crc

/-- Section 2 of 41_reset_presence.md: RSTPRES makes the same pulse, with PRESENT and PFAIL cleared, and starts the presence part
T_RST ticks after accept, without completing. -/
def Obligations.RstpresStartsPresenceAfterThePulse : Prop :=
  ∀ s : State, Accepted .rstpres s →
    let k := s.params.clkPerTick
    let p := s.params
    ResetFree (1 + p.tRst * k) s →
    (∀ n, 1 ≤ n → n ≤ p.tRst * k → ∃ t, Runs n s t ∧ t.busy = true ∧ t.done = false ∧ t.present = false ∧ t.pfail = .none ∧
      t.drv = if n ≤ p.tRstH * k then .hi else if n ≤ (p.tRstH + p.tRstL) * k then .lo else .rel) ∧
    ∃ t, Runs (1 + p.tRst * k) s t ∧ t.op = .rstpres ∧ t.ph = .prWait ∧ t.pcnt = 0 ∧ t.preCnt = 0 ∧ t.done = false ∧
      t.present = false ∧ t.pfail = .none

/-! ## Bits and bytes (42_bit_byte.md) -/

/-- 42_bit_byte.md R151: the read sample, and that it is the only one of a read slot. -/
def Obligations.ReadSampleIsTaken : Prop :=
  (∀ s : State, s.ph = .rdLo ∨ (s.ph = .rdSmp ∧ 1 < s.timer) ∨ s.ph = .rdRec → tickStep true s = tickStep false s) ∧
  ∀ s : State, TickEdge s → s.ph = .rdSmp → s.timer = 1 →
    ∃ t, step s = .next t ∧
      t.engine = { s.engine with rbit := s.sample, shreg := t.shreg, ph := .rdRec, timer := s.params.tRrec } ∧
      (s.op = .readByte → t.shreg.getLsbD 7 = s.sample ∧ ∀ i, i < 7 → t.shreg.getLsbD i = s.shreg.getLsbD (i + 1)) ∧
      (s.op ≠ .readByte → t.shreg = s.shreg)

/-- Section 1 of 42_bit_byte.md: the end of a read slot, but for the last of a READ_BYTE. -/
def Obligations.ReadSlotEnds : Prop :=
  ∀ s : State, TickEdge s → s.ph = .rdRec → s.timer = 1 →
    ∃ t, step s = .next t ∧
      (s.op = .readBit → t.engine = s.engine.completed) ∧
      (s.op = .readByte → s.bitcnt ≠ 7#3 →
        t.engine = { s.engine with bitcnt := s.bitcnt + 1#3, ph := .rdLo, timer := s.params.tRl })

/-- 42_bit_byte.md R155: the completion of a READ_BYTE; CTRL.CRCRX is read before the edge, whatever the host writes at it. Until
then neither RXDATA nor CRC changes. -/
def Obligations.ReadByteDelivers : Prop :=
  (∀ s : State, TickEdge s → s.op = .readByte → s.ph = .rdRec → s.timer = 1 → s.bitcnt = 7#3 →
    ∃ t, step s = .next t ∧
      t.engine = { s.engine.completed with
        rxdata := s.shreg, crc := if s.crcrx = true then crc8Byte s.crc s.shreg else s.crc }) ∧
  ∀ s t : State, s.port.rstN = true → s.op = .readByte → step s = .next t → t.op = .readByte →
    t.rxdata = s.rxdata ∧ t.crc = s.crc

/-- 42_bit_byte.md R158: the end of a write slot. -/
def Obligations.WriteSlotEnds : Prop :=
  ∀ s : State, TickEdge s → s.ph = .wr1Rel ∨ s.ph = .wr0Rel → s.timer = 1 →
    ∃ t, step s = .next t ∧
      (s.bitcnt = 7#3 → t.engine = s.engine.completed) ∧
      (s.bitcnt ≠ 7#3 → s.shreg.getLsbD 1 = true →
        t.engine = { s.engine with
          shreg := s.shreg >>> 1, bitcnt := s.bitcnt + 1#3, ph := .wr1Lo, timer := s.params.tW1l }) ∧
      (s.bitcnt ≠ 7#3 → s.shreg.getLsbD 1 = false →
        t.engine = { s.engine with
          shreg := s.shreg >>> 1, bitcnt := s.bitcnt + 1#3, ph := .wr0Lo, timer := s.params.tW0l })

/-- Section 1 of 42_bit_byte.md: READ_BIT from accept to completion: the driver, the one sample, and what stays. -/
def Obligations.ReadBitTimeline : Prop :=
  ∀ s : State, Accepted .readBit s →
    let k := s.params.clkPerTick
    let p := s.params
    ResetFree (1 + p.tRslot * k) s →
    (∀ n, 1 ≤ n → n ≤ p.tRslot * k → ∃ t, Runs n s t ∧ t.busy = true ∧ t.drv = if n ≤ p.tRl * k then .lo else .rel) ∧
    ∃ u t, Runs ((p.tRl + p.tRs) * k) s u ∧ Runs (1 + p.tRslot * k) s t ∧ t.busy = false ∧ t.done = true ∧
      t.rbit = u.sample ∧ t.rxdata = s.rxdata ∧ t.crc = s.crc ∧ t.shreg = s.shreg ∧ t.present = s.present ∧
      t.pfail = s.pfail

/-- Section 1 of 42_bit_byte.md: READ_BYTE from accept to completion. Bit `i` of RXDATA is the sample of slot `i`, the first slot
bit 0; CRC folds the byte if CRCRX was 1 before the completion edge. -/
def Obligations.ReadByteTimeline : Prop :=
  ∀ s : State, Accepted .readByte s →
    let k := s.params.clkPerTick
    let p := s.params
    ResetFree (1 + 8 * p.tRslot * k) s →
    (∀ i m, i < 8 → 1 ≤ m → m ≤ p.tRslot * k → ∃ t, Runs (i * p.tRslot * k + m) s t ∧ t.busy = true ∧ t.rxdata = s.rxdata ∧
      t.crc = s.crc ∧ t.drv = if m ≤ p.tRl * k then .lo else .rel) ∧
    ∃ u t, Runs (8 * p.tRslot * k) s u ∧ Runs (1 + 8 * p.tRslot * k) s t ∧ t.busy = false ∧ t.done = true ∧
      (∀ i, i < 8 → SampleAt ((i * p.tRslot + p.tRl + p.tRs) * k) s (t.rxdata.getLsbD i)) ∧
      t.rbit = t.rxdata.getLsbD 7 ∧ t.crc = (if u.crcrx = true then crc8Byte s.crc t.rxdata else s.crc) ∧
      t.present = s.present ∧ t.pfail = s.pfail

/-- Section 2 of 42_bit_byte.md: WRITE_BYTE from accept to completion. In slot `i`, which starts at tick `S_i`, the line is low for
the ticks of bit `i` of TXDATA at accept, then released; it completes at tick `S_8`, and nothing the host reads but BUSY and DONE
changes. -/
def Obligations.WriteByteTimeline : Prop :=
  ∀ s : State, Accepted .writeByte s →
    let k := s.params.clkPerTick
    let p := s.params
    let d := s.txdata
    ResetFree (1 + p.slotStart d 8 * k) s →
    (∀ i n, i < 8 → p.slotStart d i * k < n → n ≤ p.slotStart d (i + 1) * k → ∃ t, Runs n s t ∧ t.busy = true ∧
      t.drv = if n ≤ (p.slotStart d i + p.lowTicks (d.getLsbD i)) * k then .lo else .rel) ∧
    ∃ t, Runs (1 + p.slotStart d 8 * k) s t ∧ t.busy = false ∧ t.done = true ∧ t.shreg = d >>> 7 ∧ t.rbit = s.rbit ∧
      t.rxdata = s.rxdata ∧ t.crc = s.crc ∧ t.present = s.present ∧ t.pfail = s.pfail

/-- Section 3 of 10_state.md: at an edge, RXDATA and RBIT change only by a READ_BYTE's completion and a read slot's sample. -/
def Obligations.ReceiveRegistersChangeOnlyByReads : Prop :=
  ∀ s t : State, Invariant s → s.port.rstN = true → step s = .next t →
    (t.rxdata ≠ s.rxdata → s.op = .readByte ∧ t.op = .idle ∧ t.rxdata = s.shreg) ∧
    (t.rbit ≠ s.rbit → s.busy = true ∧ s.ph = .rdSmp ∧ t.rbit = s.sample)

/-! ## CRC-8 (43_crc8.md) -/

/-- Section 1 of 43_crc8.md: the byte step is the algorithm's bit step for bit 0 to bit 7 of the byte in this order, and (an
inference of the spec) each bit step is that of the reflected polynomial 0x8C. -/
def Obligations.CrcStepIsTheReflectedPolynomial : Prop :=
  (∀ c d : Byte, crc8Byte c d =
    crc8Bit (crc8Bit (crc8Bit (crc8Bit (crc8Bit (crc8Bit (crc8Bit (crc8Bit c (d.getLsbD 0)) (d.getLsbD 1)) (d.getLsbD 2))
      (d.getLsbD 3)) (d.getLsbD 4)) (d.getLsbD 5)) (d.getLsbD 6)) (d.getLsbD 7)) ∧
  (∀ (r : Byte) (d : Bool),
    crc8Bit r d = if (r.getLsbD 0 ^^ d) = true then ((r ^^^ 0x18#8) >>> 1) ||| 0x80#8 else r >>> 1) ∧
  ∀ (r : Byte) (d : Bool), crc8Bit r d = (r >>> 1) ^^^ (if r.getLsbD 0 = d then 0x00#8 else 0x8C#8)

/-- Section 1 of 43_crc8.md (an inference of the spec): the byte step depends on the running value and the byte only through their
XOR. -/
def Obligations.CrcDependsOnTheXor : Prop := ∀ c d : Byte, crc8Byte c d = crc8Byte 0x00#8 (c ^^^ d)

/-- Section 3 of 43_crc8.md: the CRC of a sequence folds its bytes one after the other, and (an inference of the spec) a sequence
followed by its own CRC gives 0, from every initial value, and only its own CRC does. -/
def Obligations.CrcOfAFrameWithItsCrcIsZero : Prop :=
  (∀ init : Byte, crc8 init [] = init) ∧
  (∀ (init : Byte) (q : List Byte) (d : Byte), crc8 init (q ++ [d]) = crc8Byte (crc8 init q) d) ∧
  ∀ (init : Byte) (q : List Byte) (c : Byte), crc8 init (q ++ [c]) = 0x00#8 ↔ c = crc8 init q

/-- 43_crc8.md R174: at an edge CRC changes only by an accepted CRC_CLEAR or CRC_FEED and by the completion of a READ_BYTE with
CRCRX = 1. -/
def Obligations.CrcChangesAtThreeKindsOfEdge : Prop :=
  ∀ s t : State, Invariant s → s.port.rstN = true → step s = .next t → t.crc ≠ s.crc →
    (s.busy = false ∧ HostWrites s .cmd 0x07#8 ∧ t.crc = 0x00#8) ∨
    (s.busy = false ∧ HostWrites s .cmd 0x08#8 ∧ t.crc = crc8Byte s.crc s.txdata) ∨
    (s.op = .readByte ∧ t.op = .idle ∧ s.crcrx = true ∧ t.crc = crc8Byte s.crc s.shreg)

/-! ## The whole machine -/

/-- The invariant holds after the block reset of every legal instance, `State.reset` among them (10_state.md sections 4 and 5). -/
def Obligations.ResetMeetsTheInvariant : Prop := Invariant State.reset ∧ ∀ p : Params, p.legal = true → Invariant (State.resetOf p)

/-- Every clock cycle keeps the invariant, on every host access, every line level and every block reset (10_state.md section 4,
40_engine_timing.md section 5). -/
def Obligations.StepKeepsTheInvariant : Prop := ∀ s t : State, Invariant s → step s = .next t → Invariant t

/-- Section 3 of 40_engine_timing.md: the engine reads the sample at the end of RD_SMP and at the ticks of PR_WAIT and PR_LOW, and
nowhere else: at any other edge two machines that differ only in the synchronizer's contents make the same step but for the
synchronizer and what the host reads of LINE. -/
def Obligations.LineIsReadOnlyAtSampleEdges : Prop :=
  ∀ (s t u : State) (y : List Bool),
    ¬ (s.busy = true ∧ s.tick = true ∧ (s.ph = .prWait ∨ s.ph = .prLow ∨ (s.ph = .rdSmp ∧ s.timer ≤ 1))) →
    step s = .next t → step { s with sync := y } = .next u → u = { t with sync := u.sync, rdata := u.rdata }

/-- Section 3 of 40_engine_timing.md (an inference of the spec): a timed phase just entered lasts exactly its duration: the phase
and the command stand for `dur`·CLK_PER_TICK cycles, and at the edge that ends them the timer is 1 and the end action runs. -/
def Obligations.TimedPhaseLastsItsDuration : Prop :=
  ∀ s : State, Invariant s → timed s.ph = true → s.timer = dur s.params s.ph → s.preCnt = 0 →
    let n := dur s.params s.ph * s.params.clkPerTick
    ResetFree n s →
    (∀ m, m < n → ∃ t, Runs m s t ∧ t.op = s.op ∧ t.ph = s.ph) ∧
    ∃ u t, Runs (n - 1) s u ∧ Runs n s t ∧ u.timer = 1 ∧ u.tick = true ∧ t.engine = (endPhase u.sample u).engine

/-- Section 5 of 40_engine_timing.md (an inference of the spec): the tick grid. From the cycle after an accept, as long as the
command runs, the ticks are the edges at the multiples of CLK_PER_TICK. -/
def Obligations.TickGridStartsAtAccept : Prop :=
  ∀ (s t : State) (n : Nat), Invariant s → s.preCnt = 0 → ResetFree n s →
    (∀ m u, m ≤ n → Runs m s u → u.busy = true) → Runs n s t → (t.tick = true ↔ s.params.clkPerTick ∣ n + 1)

/-- Section 2 of 60_exceptions.md (an inference of the spec): no hang. Whatever the host writes and whatever the line does, the
engine is idle within a number of ticks that depends on the parameters alone. -/
def Obligations.EveryCommandCompletes : Prop :=
  ∀ s : State, Invariant s →
    let n := s.params.commandBound * s.params.clkPerTick
    ResetFree n s → ∃ m t, m ≤ n ∧ Runs m s t ∧ t.busy = false
end

