-- ==== Sys2Proof/Laws/State.lean ====
section
/-! SUPPORT. What each named update of the state leaves in each field: one lemma per field per update, so that no later proof
unfolds a record update. -/

namespace Sys2Proof.Machine

/-! `accept` -/
@[simp] theorem accept_done (s : State) : (accept s).done = false := rfl
@[simp] theorem accept_present (s : State) : (accept s).present = s.present := rfl
@[simp] theorem accept_pfail (s : State) : (accept s).pfail = s.pfail := rfl
@[simp] theorem accept_rbit (s : State) : (accept s).rbit = s.rbit := rfl
@[simp] theorem accept_puen (s : State) : (accept s).puen = s.puen := rfl
@[simp] theorem accept_crcrx (s : State) : (accept s).crcrx = s.crcrx := rfl
@[simp] theorem accept_txdata (s : State) : (accept s).txdata = s.txdata := rfl
@[simp] theorem accept_rxdata (s : State) : (accept s).rxdata = s.rxdata := rfl
@[simp] theorem accept_crc (s : State) : (accept s).crc = s.crc := rfl
@[simp] theorem accept_ebusy (s : State) : (accept s).ebusy = s.ebusy := rfl
@[simp] theorem accept_ersvd (s : State) : (accept s).ersvd = s.ersvd := rfl
@[simp] theorem accept_sync (s : State) : (accept s).sync = s.sync := rfl
@[simp] theorem accept_preCnt (s : State) : (accept s).preCnt = 0 := rfl
@[simp] theorem accept_op (s : State) : (accept s).op = s.op := rfl
@[simp] theorem accept_ph (s : State) : (accept s).ph = s.ph := rfl
@[simp] theorem accept_timer (s : State) : (accept s).timer = s.timer := rfl
@[simp] theorem accept_pcnt (s : State) : (accept s).pcnt = s.pcnt := rfl
@[simp] theorem accept_bitcnt (s : State) : (accept s).bitcnt = s.bitcnt := rfl
@[simp] theorem accept_shreg (s : State) : (accept s).shreg = s.shreg := rfl
@[simp] theorem accept_params (s : State) : (accept s).params = s.params := rfl
@[simp] theorem accept_host (s : State) : (accept s).host = s.host := rfl
@[simp] theorem accept_line (s : State) : (accept s).line = s.line := rfl
@[simp] theorem accept_cycle (s : State) : (accept s).cycle = s.cycle := rfl
@[simp] theorem accept_rdata (s : State) : (accept s).rdata = s.rdata := rfl

/-! `enter` -/
@[simp] theorem enter_done (p : Phase) (s : State) : (enter p s).done = s.done := rfl
@[simp] theorem enter_present (p : Phase) (s : State) : (enter p s).present = s.present := rfl
@[simp] theorem enter_pfail (p : Phase) (s : State) : (enter p s).pfail = s.pfail := rfl
@[simp] theorem enter_rbit (p : Phase) (s : State) : (enter p s).rbit = s.rbit := rfl
@[simp] theorem enter_puen (p : Phase) (s : State) : (enter p s).puen = s.puen := rfl
@[simp] theorem enter_crcrx (p : Phase) (s : State) : (enter p s).crcrx = s.crcrx := rfl
@[simp] theorem enter_txdata (p : Phase) (s : State) : (enter p s).txdata = s.txdata := rfl
@[simp] theorem enter_rxdata (p : Phase) (s : State) : (enter p s).rxdata = s.rxdata := rfl
@[simp] theorem enter_crc (p : Phase) (s : State) : (enter p s).crc = s.crc := rfl
@[simp] theorem enter_ebusy (p : Phase) (s : State) : (enter p s).ebusy = s.ebusy := rfl
@[simp] theorem enter_ersvd (p : Phase) (s : State) : (enter p s).ersvd = s.ersvd := rfl
@[simp] theorem enter_sync (p : Phase) (s : State) : (enter p s).sync = s.sync := rfl
@[simp] theorem enter_preCnt (p : Phase) (s : State) : (enter p s).preCnt = s.preCnt := rfl
@[simp] theorem enter_op (p : Phase) (s : State) : (enter p s).op = s.op := rfl
@[simp] theorem enter_ph (p : Phase) (s : State) : (enter p s).ph = p := rfl
@[simp] theorem enter_timer (p : Phase) (s : State) : (enter p s).timer = dur s.params p := rfl
@[simp] theorem enter_pcnt (p : Phase) (s : State) : (enter p s).pcnt = s.pcnt := rfl
@[simp] theorem enter_bitcnt (p : Phase) (s : State) : (enter p s).bitcnt = s.bitcnt := rfl
@[simp] theorem enter_shreg (p : Phase) (s : State) : (enter p s).shreg = s.shreg := rfl
@[simp] theorem enter_params (p : Phase) (s : State) : (enter p s).params = s.params := rfl
@[simp] theorem enter_host (p : Phase) (s : State) : (enter p s).host = s.host := rfl
@[simp] theorem enter_line (p : Phase) (s : State) : (enter p s).line = s.line := rfl
@[simp] theorem enter_cycle (p : Phase) (s : State) : (enter p s).cycle = s.cycle := rfl
@[simp] theorem enter_rdata (p : Phase) (s : State) : (enter p s).rdata = s.rdata := rfl

/-! `startPresence` -/
@[simp] theorem startPresence_done (s : State) : (startPresence s).done = s.done := rfl
@[simp] theorem startPresence_present (s : State) : (startPresence s).present = s.present := rfl
@[simp] theorem startPresence_pfail (s : State) : (startPresence s).pfail = s.pfail := rfl
@[simp] theorem startPresence_rbit (s : State) : (startPresence s).rbit = s.rbit := rfl
@[simp] theorem startPresence_puen (s : State) : (startPresence s).puen = s.puen := rfl
@[simp] theorem startPresence_crcrx (s : State) : (startPresence s).crcrx = s.crcrx := rfl
@[simp] theorem startPresence_txdata (s : State) : (startPresence s).txdata = s.txdata := rfl
@[simp] theorem startPresence_rxdata (s : State) : (startPresence s).rxdata = s.rxdata := rfl
@[simp] theorem startPresence_crc (s : State) : (startPresence s).crc = s.crc := rfl
@[simp] theorem startPresence_ebusy (s : State) : (startPresence s).ebusy = s.ebusy := rfl
@[simp] theorem startPresence_ersvd (s : State) : (startPresence s).ersvd = s.ersvd := rfl
@[simp] theorem startPresence_sync (s : State) : (startPresence s).sync = s.sync := rfl
@[simp] theorem startPresence_preCnt (s : State) : (startPresence s).preCnt = s.preCnt := rfl
@[simp] theorem startPresence_op (s : State) : (startPresence s).op = s.op := rfl
@[simp] theorem startPresence_ph (s : State) : (startPresence s).ph = .prWait := rfl
@[simp] theorem startPresence_timer (s : State) : (startPresence s).timer = s.timer := rfl
@[simp] theorem startPresence_pcnt (s : State) : (startPresence s).pcnt = 0 := rfl
@[simp] theorem startPresence_bitcnt (s : State) : (startPresence s).bitcnt = s.bitcnt := rfl
@[simp] theorem startPresence_shreg (s : State) : (startPresence s).shreg = s.shreg := rfl
@[simp] theorem startPresence_params (s : State) : (startPresence s).params = s.params := rfl
@[simp] theorem startPresence_host (s : State) : (startPresence s).host = s.host := rfl
@[simp] theorem startPresence_line (s : State) : (startPresence s).line = s.line := rfl
@[simp] theorem startPresence_cycle (s : State) : (startPresence s).cycle = s.cycle := rfl
@[simp] theorem startPresence_rdata (s : State) : (startPresence s).rdata = s.rdata := rfl

/-! `complete` -/
@[simp] theorem complete_done (s : State) : (complete s).done = true := rfl
@[simp] theorem complete_present (s : State) : (complete s).present = s.present := rfl
@[simp] theorem complete_pfail (s : State) : (complete s).pfail = s.pfail := rfl
@[simp] theorem complete_rbit (s : State) : (complete s).rbit = s.rbit := rfl
@[simp] theorem complete_puen (s : State) : (complete s).puen = s.puen := rfl
@[simp] theorem complete_crcrx (s : State) : (complete s).crcrx = s.crcrx := rfl
@[simp] theorem complete_txdata (s : State) : (complete s).txdata = s.txdata := rfl
@[simp] theorem complete_rxdata (s : State) : (complete s).rxdata = s.rxdata := rfl
@[simp] theorem complete_crc (s : State) : (complete s).crc = s.crc := rfl
@[simp] theorem complete_ebusy (s : State) : (complete s).ebusy = s.ebusy := rfl
@[simp] theorem complete_ersvd (s : State) : (complete s).ersvd = s.ersvd := rfl
@[simp] theorem complete_sync (s : State) : (complete s).sync = s.sync := rfl
@[simp] theorem complete_preCnt (s : State) : (complete s).preCnt = s.preCnt := rfl
@[simp] theorem complete_op (s : State) : (complete s).op = .idle := rfl
@[simp] theorem complete_ph (s : State) : (complete s).ph = .none := rfl
@[simp] theorem complete_timer (s : State) : (complete s).timer = s.timer := rfl
@[simp] theorem complete_pcnt (s : State) : (complete s).pcnt = s.pcnt := rfl
@[simp] theorem complete_bitcnt (s : State) : (complete s).bitcnt = s.bitcnt := rfl
@[simp] theorem complete_shreg (s : State) : (complete s).shreg = s.shreg := rfl
@[simp] theorem complete_params (s : State) : (complete s).params = s.params := rfl
@[simp] theorem complete_host (s : State) : (complete s).host = s.host := rfl
@[simp] theorem complete_line (s : State) : (complete s).line = s.line := rfl
@[simp] theorem complete_cycle (s : State) : (complete s).cycle = s.cycle := rfl
@[simp] theorem complete_rdata (s : State) : (complete s).rdata = s.rdata := rfl

/-! `flagBusy` -/
@[simp] theorem flagBusy_done (s : State) : (flagBusy s).done = s.done := rfl
@[simp] theorem flagBusy_present (s : State) : (flagBusy s).present = s.present := rfl
@[simp] theorem flagBusy_pfail (s : State) : (flagBusy s).pfail = s.pfail := rfl
@[simp] theorem flagBusy_rbit (s : State) : (flagBusy s).rbit = s.rbit := rfl
@[simp] theorem flagBusy_puen (s : State) : (flagBusy s).puen = s.puen := rfl
@[simp] theorem flagBusy_crcrx (s : State) : (flagBusy s).crcrx = s.crcrx := rfl
@[simp] theorem flagBusy_txdata (s : State) : (flagBusy s).txdata = s.txdata := rfl
@[simp] theorem flagBusy_rxdata (s : State) : (flagBusy s).rxdata = s.rxdata := rfl
@[simp] theorem flagBusy_crc (s : State) : (flagBusy s).crc = s.crc := rfl
@[simp] theorem flagBusy_ebusy (s : State) : (flagBusy s).ebusy = true := rfl
@[simp] theorem flagBusy_ersvd (s : State) : (flagBusy s).ersvd = s.ersvd := rfl
@[simp] theorem flagBusy_sync (s : State) : (flagBusy s).sync = s.sync := rfl
@[simp] theorem flagBusy_preCnt (s : State) : (flagBusy s).preCnt = s.preCnt := rfl
@[simp] theorem flagBusy_op (s : State) : (flagBusy s).op = s.op := rfl
@[simp] theorem flagBusy_ph (s : State) : (flagBusy s).ph = s.ph := rfl
@[simp] theorem flagBusy_timer (s : State) : (flagBusy s).timer = s.timer := rfl
@[simp] theorem flagBusy_pcnt (s : State) : (flagBusy s).pcnt = s.pcnt := rfl
@[simp] theorem flagBusy_bitcnt (s : State) : (flagBusy s).bitcnt = s.bitcnt := rfl
@[simp] theorem flagBusy_shreg (s : State) : (flagBusy s).shreg = s.shreg := rfl
@[simp] theorem flagBusy_params (s : State) : (flagBusy s).params = s.params := rfl
@[simp] theorem flagBusy_host (s : State) : (flagBusy s).host = s.host := rfl
@[simp] theorem flagBusy_line (s : State) : (flagBusy s).line = s.line := rfl
@[simp] theorem flagBusy_cycle (s : State) : (flagBusy s).cycle = s.cycle := rfl
@[simp] theorem flagBusy_rdata (s : State) : (flagBusy s).rdata = s.rdata := rfl

/-! `flagReserved` -/
@[simp] theorem flagReserved_done (s : State) : (flagReserved s).done = s.done := rfl
@[simp] theorem flagReserved_present (s : State) : (flagReserved s).present = s.present := rfl
@[simp] theorem flagReserved_pfail (s : State) : (flagReserved s).pfail = s.pfail := rfl
@[simp] theorem flagReserved_rbit (s : State) : (flagReserved s).rbit = s.rbit := rfl
@[simp] theorem flagReserved_puen (s : State) : (flagReserved s).puen = s.puen := rfl
@[simp] theorem flagReserved_crcrx (s : State) : (flagReserved s).crcrx = s.crcrx := rfl
@[simp] theorem flagReserved_txdata (s : State) : (flagReserved s).txdata = s.txdata := rfl
@[simp] theorem flagReserved_rxdata (s : State) : (flagReserved s).rxdata = s.rxdata := rfl
@[simp] theorem flagReserved_crc (s : State) : (flagReserved s).crc = s.crc := rfl
@[simp] theorem flagReserved_ebusy (s : State) : (flagReserved s).ebusy = s.ebusy := rfl
@[simp] theorem flagReserved_ersvd (s : State) : (flagReserved s).ersvd = true := rfl
@[simp] theorem flagReserved_sync (s : State) : (flagReserved s).sync = s.sync := rfl
@[simp] theorem flagReserved_preCnt (s : State) : (flagReserved s).preCnt = s.preCnt := rfl
@[simp] theorem flagReserved_op (s : State) : (flagReserved s).op = s.op := rfl
@[simp] theorem flagReserved_ph (s : State) : (flagReserved s).ph = s.ph := rfl
@[simp] theorem flagReserved_timer (s : State) : (flagReserved s).timer = s.timer := rfl
@[simp] theorem flagReserved_pcnt (s : State) : (flagReserved s).pcnt = s.pcnt := rfl
@[simp] theorem flagReserved_bitcnt (s : State) : (flagReserved s).bitcnt = s.bitcnt := rfl
@[simp] theorem flagReserved_shreg (s : State) : (flagReserved s).shreg = s.shreg := rfl
@[simp] theorem flagReserved_params (s : State) : (flagReserved s).params = s.params := rfl
@[simp] theorem flagReserved_host (s : State) : (flagReserved s).host = s.host := rfl
@[simp] theorem flagReserved_line (s : State) : (flagReserved s).line = s.line := rfl
@[simp] theorem flagReserved_cycle (s : State) : (flagReserved s).cycle = s.cycle := rfl
@[simp] theorem flagReserved_rdata (s : State) : (flagReserved s).rdata = s.rdata := rfl

/-! `writeCtrl` -/
@[simp] theorem writeCtrl_done (v : Byte) (s : State) : (writeCtrl v s).done = s.done := rfl
@[simp] theorem writeCtrl_present (v : Byte) (s : State) : (writeCtrl v s).present = s.present := rfl
@[simp] theorem writeCtrl_pfail (v : Byte) (s : State) : (writeCtrl v s).pfail = s.pfail := rfl
@[simp] theorem writeCtrl_rbit (v : Byte) (s : State) : (writeCtrl v s).rbit = s.rbit := rfl
@[simp] theorem writeCtrl_puen (v : Byte) (s : State) : (writeCtrl v s).puen = v.getLsbD 0 := rfl
@[simp] theorem writeCtrl_crcrx (v : Byte) (s : State) : (writeCtrl v s).crcrx = v.getLsbD 1 := rfl
@[simp] theorem writeCtrl_txdata (v : Byte) (s : State) : (writeCtrl v s).txdata = s.txdata := rfl
@[simp] theorem writeCtrl_rxdata (v : Byte) (s : State) : (writeCtrl v s).rxdata = s.rxdata := rfl
@[simp] theorem writeCtrl_crc (v : Byte) (s : State) : (writeCtrl v s).crc = s.crc := rfl
@[simp] theorem writeCtrl_ebusy (v : Byte) (s : State) : (writeCtrl v s).ebusy = s.ebusy := rfl
@[simp] theorem writeCtrl_ersvd (v : Byte) (s : State) : (writeCtrl v s).ersvd = s.ersvd := rfl
@[simp] theorem writeCtrl_sync (v : Byte) (s : State) : (writeCtrl v s).sync = s.sync := rfl
@[simp] theorem writeCtrl_preCnt (v : Byte) (s : State) : (writeCtrl v s).preCnt = s.preCnt := rfl
@[simp] theorem writeCtrl_op (v : Byte) (s : State) : (writeCtrl v s).op = s.op := rfl
@[simp] theorem writeCtrl_ph (v : Byte) (s : State) : (writeCtrl v s).ph = s.ph := rfl
@[simp] theorem writeCtrl_timer (v : Byte) (s : State) : (writeCtrl v s).timer = s.timer := rfl
@[simp] theorem writeCtrl_pcnt (v : Byte) (s : State) : (writeCtrl v s).pcnt = s.pcnt := rfl
@[simp] theorem writeCtrl_bitcnt (v : Byte) (s : State) : (writeCtrl v s).bitcnt = s.bitcnt := rfl
@[simp] theorem writeCtrl_shreg (v : Byte) (s : State) : (writeCtrl v s).shreg = s.shreg := rfl
@[simp] theorem writeCtrl_params (v : Byte) (s : State) : (writeCtrl v s).params = s.params := rfl
@[simp] theorem writeCtrl_host (v : Byte) (s : State) : (writeCtrl v s).host = s.host := rfl
@[simp] theorem writeCtrl_line (v : Byte) (s : State) : (writeCtrl v s).line = s.line := rfl
@[simp] theorem writeCtrl_cycle (v : Byte) (s : State) : (writeCtrl v s).cycle = s.cycle := rfl
@[simp] theorem writeCtrl_rdata (v : Byte) (s : State) : (writeCtrl v s).rdata = s.rdata := rfl

/-! `writeTxdata` -/
@[simp] theorem writeTxdata_done (v : Byte) (s : State) : (writeTxdata v s).done = s.done := rfl
@[simp] theorem writeTxdata_present (v : Byte) (s : State) : (writeTxdata v s).present = s.present := rfl
@[simp] theorem writeTxdata_pfail (v : Byte) (s : State) : (writeTxdata v s).pfail = s.pfail := rfl
@[simp] theorem writeTxdata_rbit (v : Byte) (s : State) : (writeTxdata v s).rbit = s.rbit := rfl
@[simp] theorem writeTxdata_puen (v : Byte) (s : State) : (writeTxdata v s).puen = s.puen := rfl
@[simp] theorem writeTxdata_crcrx (v : Byte) (s : State) : (writeTxdata v s).crcrx = s.crcrx := rfl
@[simp] theorem writeTxdata_txdata (v : Byte) (s : State) : (writeTxdata v s).txdata = v := rfl
@[simp] theorem writeTxdata_rxdata (v : Byte) (s : State) : (writeTxdata v s).rxdata = s.rxdata := rfl
@[simp] theorem writeTxdata_crc (v : Byte) (s : State) : (writeTxdata v s).crc = s.crc := rfl
@[simp] theorem writeTxdata_ebusy (v : Byte) (s : State) : (writeTxdata v s).ebusy = s.ebusy := rfl
@[simp] theorem writeTxdata_ersvd (v : Byte) (s : State) : (writeTxdata v s).ersvd = s.ersvd := rfl
@[simp] theorem writeTxdata_sync (v : Byte) (s : State) : (writeTxdata v s).sync = s.sync := rfl
@[simp] theorem writeTxdata_preCnt (v : Byte) (s : State) : (writeTxdata v s).preCnt = s.preCnt := rfl
@[simp] theorem writeTxdata_op (v : Byte) (s : State) : (writeTxdata v s).op = s.op := rfl
@[simp] theorem writeTxdata_ph (v : Byte) (s : State) : (writeTxdata v s).ph = s.ph := rfl
@[simp] theorem writeTxdata_timer (v : Byte) (s : State) : (writeTxdata v s).timer = s.timer := rfl
@[simp] theorem writeTxdata_pcnt (v : Byte) (s : State) : (writeTxdata v s).pcnt = s.pcnt := rfl
@[simp] theorem writeTxdata_bitcnt (v : Byte) (s : State) : (writeTxdata v s).bitcnt = s.bitcnt := rfl
@[simp] theorem writeTxdata_shreg (v : Byte) (s : State) : (writeTxdata v s).shreg = s.shreg := rfl
@[simp] theorem writeTxdata_params (v : Byte) (s : State) : (writeTxdata v s).params = s.params := rfl
@[simp] theorem writeTxdata_host (v : Byte) (s : State) : (writeTxdata v s).host = s.host := rfl
@[simp] theorem writeTxdata_line (v : Byte) (s : State) : (writeTxdata v s).line = s.line := rfl
@[simp] theorem writeTxdata_cycle (v : Byte) (s : State) : (writeTxdata v s).cycle = s.cycle := rfl
@[simp] theorem writeTxdata_rdata (v : Byte) (s : State) : (writeTxdata v s).rdata = s.rdata := rfl

/-! `writeErr` -/
@[simp] theorem writeErr_done (v : Byte) (s : State) : (writeErr v s).done = s.done := rfl
@[simp] theorem writeErr_present (v : Byte) (s : State) : (writeErr v s).present = s.present := rfl
@[simp] theorem writeErr_pfail (v : Byte) (s : State) : (writeErr v s).pfail = s.pfail := rfl
@[simp] theorem writeErr_rbit (v : Byte) (s : State) : (writeErr v s).rbit = s.rbit := rfl
@[simp] theorem writeErr_puen (v : Byte) (s : State) : (writeErr v s).puen = s.puen := rfl
@[simp] theorem writeErr_crcrx (v : Byte) (s : State) : (writeErr v s).crcrx = s.crcrx := rfl
@[simp] theorem writeErr_txdata (v : Byte) (s : State) : (writeErr v s).txdata = s.txdata := rfl
@[simp] theorem writeErr_rxdata (v : Byte) (s : State) : (writeErr v s).rxdata = s.rxdata := rfl
@[simp] theorem writeErr_crc (v : Byte) (s : State) : (writeErr v s).crc = s.crc := rfl
@[simp] theorem writeErr_ebusy (v : Byte) (s : State) : (writeErr v s).ebusy = (s.ebusy && !v.getLsbD 0) := rfl
@[simp] theorem writeErr_ersvd (v : Byte) (s : State) : (writeErr v s).ersvd = (s.ersvd && !v.getLsbD 1) := rfl
@[simp] theorem writeErr_sync (v : Byte) (s : State) : (writeErr v s).sync = s.sync := rfl
@[simp] theorem writeErr_preCnt (v : Byte) (s : State) : (writeErr v s).preCnt = s.preCnt := rfl
@[simp] theorem writeErr_op (v : Byte) (s : State) : (writeErr v s).op = s.op := rfl
@[simp] theorem writeErr_ph (v : Byte) (s : State) : (writeErr v s).ph = s.ph := rfl
@[simp] theorem writeErr_timer (v : Byte) (s : State) : (writeErr v s).timer = s.timer := rfl
@[simp] theorem writeErr_pcnt (v : Byte) (s : State) : (writeErr v s).pcnt = s.pcnt := rfl
@[simp] theorem writeErr_bitcnt (v : Byte) (s : State) : (writeErr v s).bitcnt = s.bitcnt := rfl
@[simp] theorem writeErr_shreg (v : Byte) (s : State) : (writeErr v s).shreg = s.shreg := rfl
@[simp] theorem writeErr_params (v : Byte) (s : State) : (writeErr v s).params = s.params := rfl
@[simp] theorem writeErr_host (v : Byte) (s : State) : (writeErr v s).host = s.host := rfl
@[simp] theorem writeErr_line (v : Byte) (s : State) : (writeErr v s).line = s.line := rfl
@[simp] theorem writeErr_cycle (v : Byte) (s : State) : (writeErr v s).cycle = s.cycle := rfl
@[simp] theorem writeErr_rdata (v : Byte) (s : State) : (writeErr v s).rdata = s.rdata := rfl

/-! `nopAccept` -/
@[simp] theorem nopAccept_done (s : State) : (nopAccept s).done = true := rfl
@[simp] theorem nopAccept_present (s : State) : (nopAccept s).present = s.present := rfl
@[simp] theorem nopAccept_pfail (s : State) : (nopAccept s).pfail = s.pfail := rfl
@[simp] theorem nopAccept_rbit (s : State) : (nopAccept s).rbit = s.rbit := rfl
@[simp] theorem nopAccept_puen (s : State) : (nopAccept s).puen = s.puen := rfl
@[simp] theorem nopAccept_crcrx (s : State) : (nopAccept s).crcrx = s.crcrx := rfl
@[simp] theorem nopAccept_txdata (s : State) : (nopAccept s).txdata = s.txdata := rfl
@[simp] theorem nopAccept_rxdata (s : State) : (nopAccept s).rxdata = s.rxdata := rfl
@[simp] theorem nopAccept_crc (s : State) : (nopAccept s).crc = s.crc := rfl
@[simp] theorem nopAccept_ebusy (s : State) : (nopAccept s).ebusy = s.ebusy := rfl
@[simp] theorem nopAccept_ersvd (s : State) : (nopAccept s).ersvd = s.ersvd := rfl
@[simp] theorem nopAccept_sync (s : State) : (nopAccept s).sync = s.sync := rfl
@[simp] theorem nopAccept_preCnt (s : State) : (nopAccept s).preCnt = s.preCnt := rfl
@[simp] theorem nopAccept_op (s : State) : (nopAccept s).op = s.op := rfl
@[simp] theorem nopAccept_ph (s : State) : (nopAccept s).ph = s.ph := rfl
@[simp] theorem nopAccept_timer (s : State) : (nopAccept s).timer = s.timer := rfl
@[simp] theorem nopAccept_pcnt (s : State) : (nopAccept s).pcnt = s.pcnt := rfl
@[simp] theorem nopAccept_bitcnt (s : State) : (nopAccept s).bitcnt = s.bitcnt := rfl
@[simp] theorem nopAccept_shreg (s : State) : (nopAccept s).shreg = s.shreg := rfl
@[simp] theorem nopAccept_params (s : State) : (nopAccept s).params = s.params := rfl
@[simp] theorem nopAccept_host (s : State) : (nopAccept s).host = s.host := rfl
@[simp] theorem nopAccept_line (s : State) : (nopAccept s).line = s.line := rfl
@[simp] theorem nopAccept_cycle (s : State) : (nopAccept s).cycle = s.cycle := rfl
@[simp] theorem nopAccept_rdata (s : State) : (nopAccept s).rdata = s.rdata := rfl

/-! `clearPresence` -/
@[simp] theorem clearPresence_done (s : State) : (clearPresence s).done = s.done := rfl
@[simp] theorem clearPresence_present (s : State) : (clearPresence s).present = false := rfl
@[simp] theorem clearPresence_pfail (s : State) : (clearPresence s).pfail = .none := rfl
@[simp] theorem clearPresence_rbit (s : State) : (clearPresence s).rbit = s.rbit := rfl
@[simp] theorem clearPresence_puen (s : State) : (clearPresence s).puen = s.puen := rfl
@[simp] theorem clearPresence_crcrx (s : State) : (clearPresence s).crcrx = s.crcrx := rfl
@[simp] theorem clearPresence_txdata (s : State) : (clearPresence s).txdata = s.txdata := rfl
@[simp] theorem clearPresence_rxdata (s : State) : (clearPresence s).rxdata = s.rxdata := rfl
@[simp] theorem clearPresence_crc (s : State) : (clearPresence s).crc = s.crc := rfl
@[simp] theorem clearPresence_ebusy (s : State) : (clearPresence s).ebusy = s.ebusy := rfl
@[simp] theorem clearPresence_ersvd (s : State) : (clearPresence s).ersvd = s.ersvd := rfl
@[simp] theorem clearPresence_sync (s : State) : (clearPresence s).sync = s.sync := rfl
@[simp] theorem clearPresence_preCnt (s : State) : (clearPresence s).preCnt = s.preCnt := rfl
@[simp] theorem clearPresence_op (s : State) : (clearPresence s).op = s.op := rfl
@[simp] theorem clearPresence_ph (s : State) : (clearPresence s).ph = s.ph := rfl
@[simp] theorem clearPresence_timer (s : State) : (clearPresence s).timer = s.timer := rfl
@[simp] theorem clearPresence_pcnt (s : State) : (clearPresence s).pcnt = s.pcnt := rfl
@[simp] theorem clearPresence_bitcnt (s : State) : (clearPresence s).bitcnt = s.bitcnt := rfl
@[simp] theorem clearPresence_shreg (s : State) : (clearPresence s).shreg = s.shreg := rfl
@[simp] theorem clearPresence_params (s : State) : (clearPresence s).params = s.params := rfl
@[simp] theorem clearPresence_host (s : State) : (clearPresence s).host = s.host := rfl
@[simp] theorem clearPresence_line (s : State) : (clearPresence s).line = s.line := rfl
@[simp] theorem clearPresence_cycle (s : State) : (clearPresence s).cycle = s.cycle := rfl
@[simp] theorem clearPresence_rdata (s : State) : (clearPresence s).rdata = s.rdata := rfl

/-! `crcClearAccept` -/
@[simp] theorem crcClearAccept_done (s : State) : (crcClearAccept s).done = true := rfl
@[simp] theorem crcClearAccept_present (s : State) : (crcClearAccept s).present = s.present := rfl
@[simp] theorem crcClearAccept_pfail (s : State) : (crcClearAccept s).pfail = s.pfail := rfl
@[simp] theorem crcClearAccept_rbit (s : State) : (crcClearAccept s).rbit = s.rbit := rfl
@[simp] theorem crcClearAccept_puen (s : State) : (crcClearAccept s).puen = s.puen := rfl
@[simp] theorem crcClearAccept_crcrx (s : State) : (crcClearAccept s).crcrx = s.crcrx := rfl
@[simp] theorem crcClearAccept_txdata (s : State) : (crcClearAccept s).txdata = s.txdata := rfl
@[simp] theorem crcClearAccept_rxdata (s : State) : (crcClearAccept s).rxdata = s.rxdata := rfl
@[simp] theorem crcClearAccept_crc (s : State) : (crcClearAccept s).crc = 0x00#8 := rfl
@[simp] theorem crcClearAccept_ebusy (s : State) : (crcClearAccept s).ebusy = s.ebusy := rfl
@[simp] theorem crcClearAccept_ersvd (s : State) : (crcClearAccept s).ersvd = s.ersvd := rfl
@[simp] theorem crcClearAccept_sync (s : State) : (crcClearAccept s).sync = s.sync := rfl
@[simp] theorem crcClearAccept_preCnt (s : State) : (crcClearAccept s).preCnt = s.preCnt := rfl
@[simp] theorem crcClearAccept_op (s : State) : (crcClearAccept s).op = s.op := rfl
@[simp] theorem crcClearAccept_ph (s : State) : (crcClearAccept s).ph = s.ph := rfl
@[simp] theorem crcClearAccept_timer (s : State) : (crcClearAccept s).timer = s.timer := rfl
@[simp] theorem crcClearAccept_pcnt (s : State) : (crcClearAccept s).pcnt = s.pcnt := rfl
@[simp] theorem crcClearAccept_bitcnt (s : State) : (crcClearAccept s).bitcnt = s.bitcnt := rfl
@[simp] theorem crcClearAccept_shreg (s : State) : (crcClearAccept s).shreg = s.shreg := rfl
@[simp] theorem crcClearAccept_params (s : State) : (crcClearAccept s).params = s.params := rfl
@[simp] theorem crcClearAccept_host (s : State) : (crcClearAccept s).host = s.host := rfl
@[simp] theorem crcClearAccept_line (s : State) : (crcClearAccept s).line = s.line := rfl
@[simp] theorem crcClearAccept_cycle (s : State) : (crcClearAccept s).cycle = s.cycle := rfl
@[simp] theorem crcClearAccept_rdata (s : State) : (crcClearAccept s).rdata = s.rdata := rfl

/-! `crcFeedAccept` -/
@[simp] theorem crcFeedAccept_done (s : State) : (crcFeedAccept s).done = true := rfl
@[simp] theorem crcFeedAccept_present (s : State) : (crcFeedAccept s).present = s.present := rfl
@[simp] theorem crcFeedAccept_pfail (s : State) : (crcFeedAccept s).pfail = s.pfail := rfl
@[simp] theorem crcFeedAccept_rbit (s : State) : (crcFeedAccept s).rbit = s.rbit := rfl
@[simp] theorem crcFeedAccept_puen (s : State) : (crcFeedAccept s).puen = s.puen := rfl
@[simp] theorem crcFeedAccept_crcrx (s : State) : (crcFeedAccept s).crcrx = s.crcrx := rfl
@[simp] theorem crcFeedAccept_txdata (s : State) : (crcFeedAccept s).txdata = s.txdata := rfl
@[simp] theorem crcFeedAccept_rxdata (s : State) : (crcFeedAccept s).rxdata = s.rxdata := rfl
@[simp] theorem crcFeedAccept_crc (s : State) : (crcFeedAccept s).crc = crc8Byte s.crc s.txdata := rfl
@[simp] theorem crcFeedAccept_ebusy (s : State) : (crcFeedAccept s).ebusy = s.ebusy := rfl
@[simp] theorem crcFeedAccept_ersvd (s : State) : (crcFeedAccept s).ersvd = s.ersvd := rfl
@[simp] theorem crcFeedAccept_sync (s : State) : (crcFeedAccept s).sync = s.sync := rfl
@[simp] theorem crcFeedAccept_preCnt (s : State) : (crcFeedAccept s).preCnt = s.preCnt := rfl
@[simp] theorem crcFeedAccept_op (s : State) : (crcFeedAccept s).op = s.op := rfl
@[simp] theorem crcFeedAccept_ph (s : State) : (crcFeedAccept s).ph = s.ph := rfl
@[simp] theorem crcFeedAccept_timer (s : State) : (crcFeedAccept s).timer = s.timer := rfl
@[simp] theorem crcFeedAccept_pcnt (s : State) : (crcFeedAccept s).pcnt = s.pcnt := rfl
@[simp] theorem crcFeedAccept_bitcnt (s : State) : (crcFeedAccept s).bitcnt = s.bitcnt := rfl
@[simp] theorem crcFeedAccept_shreg (s : State) : (crcFeedAccept s).shreg = s.shreg := rfl
@[simp] theorem crcFeedAccept_params (s : State) : (crcFeedAccept s).params = s.params := rfl
@[simp] theorem crcFeedAccept_host (s : State) : (crcFeedAccept s).host = s.host := rfl
@[simp] theorem crcFeedAccept_line (s : State) : (crcFeedAccept s).line = s.line := rfl
@[simp] theorem crcFeedAccept_cycle (s : State) : (crcFeedAccept s).cycle = s.cycle := rfl
@[simp] theorem crcFeedAccept_rdata (s : State) : (crcFeedAccept s).rdata = s.rdata := rfl

/-! `shiftSync` -/
@[simp] theorem shiftSync_done (s t : State) : (shiftSync s t).done = t.done := rfl
@[simp] theorem shiftSync_present (s t : State) : (shiftSync s t).present = t.present := rfl
@[simp] theorem shiftSync_pfail (s t : State) : (shiftSync s t).pfail = t.pfail := rfl
@[simp] theorem shiftSync_rbit (s t : State) : (shiftSync s t).rbit = t.rbit := rfl
@[simp] theorem shiftSync_puen (s t : State) : (shiftSync s t).puen = t.puen := rfl
@[simp] theorem shiftSync_crcrx (s t : State) : (shiftSync s t).crcrx = t.crcrx := rfl
@[simp] theorem shiftSync_txdata (s t : State) : (shiftSync s t).txdata = t.txdata := rfl
@[simp] theorem shiftSync_rxdata (s t : State) : (shiftSync s t).rxdata = t.rxdata := rfl
@[simp] theorem shiftSync_crc (s t : State) : (shiftSync s t).crc = t.crc := rfl
@[simp] theorem shiftSync_ebusy (s t : State) : (shiftSync s t).ebusy = t.ebusy := rfl
@[simp] theorem shiftSync_ersvd (s t : State) : (shiftSync s t).ersvd = t.ersvd := rfl
@[simp] theorem shiftSync_sync (s t : State) : (shiftSync s t).sync = s.dqI :: s.sync.dropLast := rfl
@[simp] theorem shiftSync_preCnt (s t : State) : (shiftSync s t).preCnt = t.preCnt := rfl
@[simp] theorem shiftSync_op (s t : State) : (shiftSync s t).op = t.op := rfl
@[simp] theorem shiftSync_ph (s t : State) : (shiftSync s t).ph = t.ph := rfl
@[simp] theorem shiftSync_timer (s t : State) : (shiftSync s t).timer = t.timer := rfl
@[simp] theorem shiftSync_pcnt (s t : State) : (shiftSync s t).pcnt = t.pcnt := rfl
@[simp] theorem shiftSync_bitcnt (s t : State) : (shiftSync s t).bitcnt = t.bitcnt := rfl
@[simp] theorem shiftSync_shreg (s t : State) : (shiftSync s t).shreg = t.shreg := rfl
@[simp] theorem shiftSync_params (s t : State) : (shiftSync s t).params = t.params := rfl
@[simp] theorem shiftSync_host (s t : State) : (shiftSync s t).host = t.host := rfl
@[simp] theorem shiftSync_line (s t : State) : (shiftSync s t).line = t.line := rfl
@[simp] theorem shiftSync_cycle (s t : State) : (shiftSync s t).cycle = t.cycle := rfl
@[simp] theorem shiftSync_rdata (s t : State) : (shiftSync s t).rdata = t.rdata := rfl

/-! `passCycle` -/
@[simp] theorem passCycle_done (s t : State) : (passCycle s t).done = t.done := rfl
@[simp] theorem passCycle_present (s t : State) : (passCycle s t).present = t.present := rfl
@[simp] theorem passCycle_pfail (s t : State) : (passCycle s t).pfail = t.pfail := rfl
@[simp] theorem passCycle_rbit (s t : State) : (passCycle s t).rbit = t.rbit := rfl
@[simp] theorem passCycle_puen (s t : State) : (passCycle s t).puen = t.puen := rfl
@[simp] theorem passCycle_crcrx (s t : State) : (passCycle s t).crcrx = t.crcrx := rfl
@[simp] theorem passCycle_txdata (s t : State) : (passCycle s t).txdata = t.txdata := rfl
@[simp] theorem passCycle_rxdata (s t : State) : (passCycle s t).rxdata = t.rxdata := rfl
@[simp] theorem passCycle_crc (s t : State) : (passCycle s t).crc = t.crc := rfl
@[simp] theorem passCycle_ebusy (s t : State) : (passCycle s t).ebusy = t.ebusy := rfl
@[simp] theorem passCycle_ersvd (s t : State) : (passCycle s t).ersvd = t.ersvd := rfl
@[simp] theorem passCycle_sync (s t : State) : (passCycle s t).sync = t.sync := rfl
@[simp] theorem passCycle_preCnt (s t : State) : (passCycle s t).preCnt = t.preCnt := rfl
@[simp] theorem passCycle_op (s t : State) : (passCycle s t).op = t.op := rfl
@[simp] theorem passCycle_ph (s t : State) : (passCycle s t).ph = t.ph := rfl
@[simp] theorem passCycle_timer (s t : State) : (passCycle s t).timer = t.timer := rfl
@[simp] theorem passCycle_pcnt (s t : State) : (passCycle s t).pcnt = t.pcnt := rfl
@[simp] theorem passCycle_bitcnt (s t : State) : (passCycle s t).bitcnt = t.bitcnt := rfl
@[simp] theorem passCycle_shreg (s t : State) : (passCycle s t).shreg = t.shreg := rfl
@[simp] theorem passCycle_params (s t : State) : (passCycle s t).params = t.params := rfl
@[simp] theorem passCycle_host (s t : State) : (passCycle s t).host = s.host.tail := rfl
@[simp] theorem passCycle_line (s t : State) : (passCycle s t).line = s.line.tail := rfl
@[simp] theorem passCycle_cycle (s t : State) : (passCycle s t).cycle = s.cycle + 1 := rfl
@[simp] theorem passCycle_rdata (s t : State) : (passCycle s t).rdata = s.readPort := rfl

/-! `mergeTick` -/
@[simp] theorem mergeTick_done (t u : State) : (mergeTick t u).done = u.done := rfl
@[simp] theorem mergeTick_present (t u : State) : (mergeTick t u).present = u.present := rfl
@[simp] theorem mergeTick_pfail (t u : State) : (mergeTick t u).pfail = u.pfail := rfl
@[simp] theorem mergeTick_rbit (t u : State) : (mergeTick t u).rbit = u.rbit := rfl
@[simp] theorem mergeTick_puen (t u : State) : (mergeTick t u).puen = t.puen := rfl
@[simp] theorem mergeTick_crcrx (t u : State) : (mergeTick t u).crcrx = t.crcrx := rfl
@[simp] theorem mergeTick_txdata (t u : State) : (mergeTick t u).txdata = t.txdata := rfl
@[simp] theorem mergeTick_rxdata (t u : State) : (mergeTick t u).rxdata = u.rxdata := rfl
@[simp] theorem mergeTick_crc (t u : State) : (mergeTick t u).crc = u.crc := rfl
@[simp] theorem mergeTick_ebusy (t u : State) : (mergeTick t u).ebusy = t.ebusy := rfl
@[simp] theorem mergeTick_ersvd (t u : State) : (mergeTick t u).ersvd = t.ersvd := rfl
@[simp] theorem mergeTick_sync (t u : State) : (mergeTick t u).sync = t.sync := rfl
@[simp] theorem mergeTick_preCnt (t u : State) : (mergeTick t u).preCnt = t.preCnt := rfl
@[simp] theorem mergeTick_op (t u : State) : (mergeTick t u).op = u.op := rfl
@[simp] theorem mergeTick_ph (t u : State) : (mergeTick t u).ph = u.ph := rfl
@[simp] theorem mergeTick_timer (t u : State) : (mergeTick t u).timer = u.timer := rfl
@[simp] theorem mergeTick_pcnt (t u : State) : (mergeTick t u).pcnt = u.pcnt := rfl
@[simp] theorem mergeTick_bitcnt (t u : State) : (mergeTick t u).bitcnt = u.bitcnt := rfl
@[simp] theorem mergeTick_shreg (t u : State) : (mergeTick t u).shreg = u.shreg := rfl
@[simp] theorem mergeTick_params (t u : State) : (mergeTick t u).params = t.params := rfl
@[simp] theorem mergeTick_host (t u : State) : (mergeTick t u).host = t.host := rfl
@[simp] theorem mergeTick_line (t u : State) : (mergeTick t u).line = t.line := rfl
@[simp] theorem mergeTick_cycle (t u : State) : (mergeTick t u).cycle = t.cycle := rfl
@[simp] theorem mergeTick_rdata (t u : State) : (mergeTick t u).rdata = t.rdata := rfl

/-! `blockReset` -/
@[simp] theorem blockReset_done (s : State) : (blockReset s).done = false := rfl
@[simp] theorem blockReset_present (s : State) : (blockReset s).present = false := rfl
@[simp] theorem blockReset_pfail (s : State) : (blockReset s).pfail = .none := rfl
@[simp] theorem blockReset_rbit (s : State) : (blockReset s).rbit = false := rfl
@[simp] theorem blockReset_puen (s : State) : (blockReset s).puen = true := rfl
@[simp] theorem blockReset_crcrx (s : State) : (blockReset s).crcrx = true := rfl
@[simp] theorem blockReset_txdata (s : State) : (blockReset s).txdata = 0x00#8 := rfl
@[simp] theorem blockReset_rxdata (s : State) : (blockReset s).rxdata = 0x00#8 := rfl
@[simp] theorem blockReset_crc (s : State) : (blockReset s).crc = 0x00#8 := rfl
@[simp] theorem blockReset_ebusy (s : State) : (blockReset s).ebusy = false := rfl
@[simp] theorem blockReset_ersvd (s : State) : (blockReset s).ersvd = false := rfl
@[simp] theorem blockReset_sync (s : State) : (blockReset s).sync = List.replicate s.params.syncStages true := rfl
@[simp] theorem blockReset_preCnt (s : State) : (blockReset s).preCnt = 0 := rfl
@[simp] theorem blockReset_op (s : State) : (blockReset s).op = .idle := rfl
@[simp] theorem blockReset_ph (s : State) : (blockReset s).ph = .none := rfl
@[simp] theorem blockReset_timer (s : State) : (blockReset s).timer = 0 := rfl
@[simp] theorem blockReset_pcnt (s : State) : (blockReset s).pcnt = 0 := rfl
@[simp] theorem blockReset_bitcnt (s : State) : (blockReset s).bitcnt = 0#3 := rfl
@[simp] theorem blockReset_shreg (s : State) : (blockReset s).shreg = 0x00#8 := rfl
@[simp] theorem blockReset_params (s : State) : (blockReset s).params = s.params := rfl
@[simp] theorem blockReset_host (s : State) : (blockReset s).host = s.host := rfl
@[simp] theorem blockReset_line (s : State) : (blockReset s).line = s.line := rfl
@[simp] theorem blockReset_cycle (s : State) : (blockReset s).cycle = s.cycle := rfl
@[simp] theorem blockReset_rdata (s : State) : (blockReset s).rdata = s.rdata := rfl

end Sys2Proof.Machine
end

