-- ==== Sys2Proof/Laws/Ops.lean ====
section
/-! SUPPORT. What the shared operations can do, said once: the decoder, a command's edge, the host's access, the parts of an edge,
and the whole clock cycle. -/

namespace Sys2Proof.Machine

/-! ## Decoder -/

theorem decode_encode (i : Instr) : decode (encode i) = .command i := by cases i <;> rfl

theorem encode_of_decode : ∀ (c : Byte) (i : Instr), decode c = .command i → c = encode i := by
  intro c i
  cases i <;> revert c <;> decide

theorem decode_reserved : ∀ c : Byte, decodedInstr (decode c) = none ↔ 9 ≤ c.toNat := by decide

/-! ## Commands -/

/-- The effect of each command at its accept edge, after `accept`. -/
def acceptEffect : Instr → State → State
  | .nop => nopAccept
  | .reset => resetAccept
  | .presence => presenceAccept
  | .rstpres => rstpresAccept
  | .readBit => readBitAccept
  | .readByte => readByteAccept
  | .writeByte => writeByteAccept
  | .crcClear => crcClearAccept
  | .crcFeed => crcFeedAccept

theorem exec_eq (i : Instr) (s : State) : exec i s = commandEdge (acceptEffect i) s := by cases i <;> rfl

theorem commandEdge_eq (f : State → State) (s : State) :
    commandEdge f s = .next (if s.busy then flagBusy s else f (accept s)) := by
  unfold commandEdge; split <;> rfl

theorem exec_next (i : Instr) (s : State) :
    exec i s = .next (if s.busy then flagBusy s else acceptEffect i (accept s)) := by
  rw [exec_eq, commandEdge_eq]

theorem busy_iff (s : State) : s.busy = true ↔ s.op ≠ .idle := by simp [State.busy]

theorem busy_eq_false_iff (s : State) : s.busy = false ↔ s.op = .idle := by simp [State.busy]

/-- A command's accept leaves everything but the engine's registers. -/
structure KeepsHostSide (s t : State) : Prop where
  puen : t.puen = s.puen
  crcrx : t.crcrx = s.crcrx
  txdata : t.txdata = s.txdata
  ebusy : t.ebusy = s.ebusy
  ersvd : t.ersvd = s.ersvd
  sync : t.sync = s.sync
  preCnt : t.preCnt = s.preCnt
  params : t.params = s.params
  host : t.host = s.host
  line : t.line = s.line
  cycle : t.cycle = s.cycle
  rdata : t.rdata = s.rdata

theorem acceptEffect_keeps (i : Instr) (s : State) : KeepsHostSide s (acceptEffect i s) := by
  cases i
  case writeByte =>
    simp only [acceptEffect, writeByteAccept, enterWriteSlot]
    split <;> constructor <;> rfl
  all_goals constructor <;> rfl

/-! ## The host's access -/

/-- What a byte written to CMD makes of the state. -/
def commandAfter (c : Byte) (s : State) : State :=
  if s.busy then flagBusy s
  else
    match decodedInstr (decode c) with
    | some i => acceptEffect i (accept s)
    | none => flagReserved s

theorem commandWrite_eq (c : Byte) (s : State) : commandWrite c s = .next (commandAfter c s) := by
  unfold commandWrite commandAfter
  cases h : decode c with
  | command i => simp only [decodedInstr, exec_next]
  | reservedNibble => simp only [decodedInstr, reservedEdge]; split <;> rfl
  | reservedOpcode => simp only [decodedInstr, reservedEdge]; split <;> rfl

/-- What a host write of `v` to register `r` makes of the state. -/
def writeAfter (r : Reg) (v : Byte) (s : State) : State :=
  match r with
  | .cmd => commandAfter v s
  | .ctrl => writeCtrl v s
  | .txdata => writeTxdata v s
  | .err => writeErr v s
  | .status | .rxdata | .crc | .reserved => s

/-- What the host's access makes of the state. -/
def hostAfter (s : State) : State := if s.port.we then writeAfter (regAt s.port.addr) s.port.wdata s else s

theorem hostAccess_eq (s : State) : hostAccess s = .next (hostAfter s) := by
  unfold hostAccess hostAfter
  split
  · unfold hostWrite
    cases regAt s.port.addr <;> simp only [commandWrite_eq] <;> rfl
  · rfl

/-- The fields no host access writes. -/
structure KeepsInputs (s t : State) : Prop where
  sync : t.sync = s.sync
  params : t.params = s.params
  host : t.host = s.host
  line : t.line = s.line
  cycle : t.cycle = s.cycle
  rdata : t.rdata = s.rdata

theorem commandAfter_keeps (c : Byte) (s : State) : KeepsInputs s (commandAfter c s) := by
  unfold commandAfter
  split
  · constructor <;> rfl
  · split
    · next i _ =>
      have h := acceptEffect_keeps i (accept s)
      exact ⟨h.sync, h.params, h.host, h.line, h.cycle, h.rdata⟩
    · constructor <;> rfl

theorem hostAfter_keeps (s : State) : KeepsInputs s (hostAfter s) := by
  unfold hostAfter writeAfter
  split
  · split
    · exact commandAfter_keeps _ _
    all_goals constructor <;> rfl
  · constructor <;> rfl

/-- While a command runs, no host access writes the engine's registers or the prescaler. -/
theorem hostAfter_busy (s : State) (h : s.busy = true) :
    (hostAfter s).engine = s.engine ∧ (hostAfter s).preCnt = s.preCnt := by
  unfold hostAfter writeAfter
  split
  · split
    · simp only [commandAfter, h, if_true]; exact ⟨rfl, rfl⟩
    all_goals exact ⟨rfl, rfl⟩
  · exact ⟨rfl, rfl⟩

/-! ## The parts of an edge -/

@[simp] theorem engine_mergeTick (t u : State) : (mergeTick t u).engine = u.engine := rfl

@[simp] theorem engine_shiftSync (s t : State) : (shiftSync s t).engine = t.engine := rfl

@[simp] theorem engine_passCycle (s t : State) : (passCycle s t).engine = t.engine := rfl

@[simp] theorem engine_prescale (s t : State) : (prescale s t).engine = t.engine := by
  unfold prescale; split <;> rfl

theorem finishEdge_engine (s t : State) :
    (finishEdge s t).engine = if s.busy && s.tick then (tickStep s.sample s).engine else t.engine := by
  unfold finishEdge engineTick
  split <;> simp

/-- What an edge takes from the host's access unchanged. -/
theorem finishEdge_hostSide (s t : State) :
    (finishEdge s t).puen = t.puen ∧ (finishEdge s t).crcrx = t.crcrx ∧ (finishEdge s t).txdata = t.txdata ∧
    (finishEdge s t).ebusy = t.ebusy ∧ (finishEdge s t).ersvd = t.ersvd ∧ (finishEdge s t).params = t.params := by
  unfold finishEdge prescale engineTick
  split <;> split <;> exact ⟨rfl, rfl, rfl, rfl, rfl, rfl⟩

theorem finishEdge_preCnt (s t : State) :
    (finishEdge s t).preCnt = if accepts s then t.preCnt else if s.tick then 0 else s.preCnt + 1 := by
  unfold finishEdge prescale engineTick
  split <;> split <;> rfl

@[simp] theorem finishEdge_sync (s t : State) : (finishEdge s t).sync = s.dqI :: s.sync.dropLast := rfl

@[simp] theorem finishEdge_host (s t : State) : (finishEdge s t).host = s.host.tail := rfl

@[simp] theorem finishEdge_line (s t : State) : (finishEdge s t).line = s.line.tail := rfl

@[simp] theorem finishEdge_cycle (s t : State) : (finishEdge s t).cycle = s.cycle + 1 := rfl

@[simp] theorem finishEdge_rdata (s t : State) : (finishEdge s t).rdata = s.readPort := rfl

/-! ## The clock cycle -/

/-- What one clock cycle of a legal instance makes of the state. -/
def cycleAfter (s : State) : State :=
  if s.port.rstN then finishEdge s (hostAfter s) else passCycle s (blockReset s)

theorem step_eq (s : State) (h : s.params.legal = true) : step s = .next (cycleAfter s) := by
  unfold step clockCycle clockEdge cycleAfter
  rw [if_pos h, hostAccess_eq]
  split <;> rfl

theorem step_next_iff (s t : State) : step s = .next t ↔ s.params.legal = true ∧ t = cycleAfter s := by
  constructor
  · intro h
    by_cases hl : s.params.legal = true
    · rw [step_eq s hl] at h
      exact ⟨hl, by injection h with h; exact h.symm⟩
    · unfold step clockCycle at h
      rw [if_neg hl] at h
      cases h
  · rintro ⟨hl, rfl⟩
    exact step_eq s hl

theorem cycleAfter_edge (s : State) (h : s.port.rstN = true) : cycleAfter s = finishEdge s (hostAfter s) := by
  unfold cycleAfter; rw [if_pos h]

@[simp] theorem cycleAfter_params (s : State) : (cycleAfter s).params = s.params := by
  unfold cycleAfter
  split
  · rw [(finishEdge_hostSide s (hostAfter s)).2.2.2.2.2, (hostAfter_keeps s).params]
  · rfl

@[simp] theorem cycleAfter_host (s : State) : (cycleAfter s).host = s.host.tail := by
  unfold cycleAfter; split <;> rfl

@[simp] theorem cycleAfter_line (s : State) : (cycleAfter s).line = s.line.tail := by
  unfold cycleAfter; split <;> rfl

@[simp] theorem cycleAfter_cycle (s : State) : (cycleAfter s).cycle = s.cycle + 1 := by
  unfold cycleAfter; split <;> rfl

@[simp] theorem cycleAfter_rdata (s : State) : (cycleAfter s).rdata = s.readPort := by
  unfold cycleAfter; split <;> rfl

/-! ## Registers, acceptance and ticks -/

theorem regAt_regAddr (r : Reg) : regAt (regAddr r) = r := by cases r <;> rfl

theorem regAddr_regAt (a : Addr) : regAddr (regAt a) = a := by revert a; decide

theorem commandByte_eq_some (s : State) (c : Byte) : s.commandByte = some c ↔ HostWrites s .cmd c := by
  unfold State.commandByte HostWrites
  have : (regAt s.port.addr = .cmd) ↔ s.port.addr = regAddr .cmd := by
    constructor
    · intro h; rw [← h, regAddr_regAt]
    · intro h; rw [h, regAt_regAddr]
  simp [this, and_assoc]

theorem decodedInstr_eq_some (c : Byte) (i : Instr) : decodedInstr (decode c) = some i ↔ decode c = .command i := by
  cases h : decode c <;> simp [decodedInstr]

theorem accepts_iff (s : State) : accepts s = true ↔ ∃ c i, HostWrites s .cmd c ∧ s.op = .idle ∧ decode c = .command i := by
  unfold accepts
  cases h : s.commandByte with
  | none =>
    simp
    intro x hx
    rw [← commandByte_eq_some, h] at hx; cases hx
  | some c =>
    have := (commandByte_eq_some s c).1 h
    simp [busy_eq_false_iff, Option.isSome_iff_exists]
    constructor
    · rintro ⟨h1, i, h2⟩
      exact ⟨c, this, h1, i, (decodedInstr_eq_some c i).1 h2⟩
    · rintro ⟨c', h1, h2, i, h3⟩
      rw [← commandByte_eq_some, h] at h1
      cases h1
      exact ⟨h2, i, (decodedInstr_eq_some c i).2 h3⟩

theorem tick_iff (s : State) : s.tick = true ↔ s.preCnt = s.params.clkPerTick - 1 := by simp [State.tick]

theorem hostAfter_accepts (s : State) (h : accepts s = true) : (hostAfter s).preCnt = 0 := by
  obtain ⟨c, i, ⟨h1, h2, h3, h4⟩, h5, h6⟩ := (accepts_iff s).1 h
  simp only [hostAfter, writeAfter, h2, h3, h4, regAt_regAddr, if_true, commandAfter, h6, decodedInstr]
  rw [(busy_eq_false_iff s).2 h5]
  simp [(acceptEffect_keeps i (accept s)).preCnt]

theorem edge_tick (s : State) (h : TickEdge s) : ∃ t, step s = .next t ∧ t.engine = (tickStep s.sample s).engine := by
  obtain ⟨h1, h2, h3, h4⟩ := h
  refine ⟨_, step_eq s h1, ?_⟩
  rw [cycleAfter_edge s h2, finishEdge_engine, (busy_iff s).2 h3, (tick_iff s).2 h4]; rfl

theorem tickStep_timed (b : Bool) (s : State) (h1 : s.ph ≠ .prWait) (h2 : s.ph ≠ .prLow) : tickStep b s = timedTick b s := by
  unfold tickStep; cases h : s.ph <;> simp_all

theorem exec_idle (i : Instr) (s : State) (h : s.op = .idle) : exec i s = .next (acceptEffect i (accept s)) := by
  rw [exec_next, (busy_eq_false_iff s).2 h]; rfl

theorem exec_busy (i : Instr) (s : State) (h : s.op ≠ .idle) : exec i s = .next (flagBusy s) := by
  rw [exec_next, (busy_iff s).2 h]; rfl

theorem sample_eq (s : State) (h : s.sync ≠ []) (d : Bool) : s.sample = s.sync.getD (s.sync.length - 1) d := by
  unfold State.sample
  cases hs : s.sync with
  | nil => exact absurd hs h
  | cons a l => simp [List.getLastD_eq_getLast?, List.getLast?_eq_getElem?]

theorem step_refused (s : State) : step s = .refused .illegalParameters ↔ s.params.legal = false := by
  constructor
  · intro h
    by_contra hl
    rw [step_eq s (by simpa using hl)] at h
    cases h
  · intro h; simp [step, clockCycle, h]

end Sys2Proof.Machine
end

