-- ==== Sys2Proof/Laws/Params.lean ====
section
/-! SUPPORT. What a legal parameter set satisfies (00_scope.md R7), as plain inequalities. -/

namespace Sys2Proof

theorem Params.clocked_iff (p : Params) : p.clocked = true ↔ 1 ≤ p.clkPerTick ∧ 1 ≤ p.syncStages := by
  simp [Params.clocked, Nat.one_le_iff_ne_zero]

theorem Params.legal_iff (p : Params) :
    p.legal = true ↔
      (1 ≤ p.clkPerTick ∧ 1 ≤ p.syncStages) ∧ ((∀ t ∈ p.durations, 1 ≤ t) ∧ 1 ≤ p.pWaitMax ∧ 1 ≤ p.pLowMin) ∧
      p.pLowMin ≤ p.pLowMax ∧ ((∀ t ∈ p.durations, t ≤ p.cntMax) ∧ p.pWaitMax ≤ p.cntMax ∧ p.pLowMax + 1 ≤ p.cntMax) ∧
      p.tW1l < p.tW0l ∧
      (p.tW0l + p.tW0r < p.tRstL ∧ p.tW1l + p.tW1r < p.tRstL ∧ p.tRl + p.tRs + p.tRrec < p.tRstL) := by
  simp only [Params.legal, Bool.and_eq_true, Params.clocked_iff, Params.positive, Params.pulseOrdered, Params.countersFit,
    Params.shortIsOne, Params.resetDominates, List.all_eq_true, decide_eq_true_eq, and_assoc]

theorem Params.legal_clk {p : Params} (h : p.legal = true) : 1 ≤ p.clkPerTick := ((Params.legal_iff p).1 h).1.1

theorem Params.legal_stages {p : Params} (h : p.legal = true) : 1 ≤ p.syncStages := ((Params.legal_iff p).1 h).1.2

theorem Params.nominal_legal {k : Nat} (h : 1 ≤ k) : (Params.nominal k).legal = true := by
  rw [Params.legal_iff]
  refine ⟨⟨h, ?_⟩, ?_⟩ <;> simp [Params.nominal, Params.durations, Params.cntMax]

namespace Machine

/-- The duration of a timed phase of a legal instance is at least 1 and fits the timer. -/
theorem legal_dur {p : Params} (h : p.legal = true) {ph : Phase} (ht : timed ph = true) : 1 ≤ dur p ph ∧ dur p ph ≤ p.cntMax := by
  obtain ⟨-, ⟨h1, -⟩, -, ⟨h2, -⟩, -⟩ := (Params.legal_iff p).1 h
  have hm : dur p ph ∈ p.durations := by
    cases ph <;> first | exact absurd ht (by decide) | simp [dur, Params.durations]
  exact ⟨h1 _ hm, h2 _ hm⟩

end Machine

end Sys2Proof
end

