-- ==== Sys2Proof/Laws/Engine.lean ====
section
/-! SUPPORT. The engine's tick: what it depends on, and what it can do, phase by phase. -/

namespace Sys2Proof.Machine

/-- Two states are equal when their engine registers and their other fields are. -/
theorem State.eq_of_engine {s t : State} (h : s.engine = t.engine) (h1 : s.puen = t.puen) (h2 : s.crcrx = t.crcrx)
    (h3 : s.txdata = t.txdata) (h4 : s.ebusy = t.ebusy) (h5 : s.ersvd = t.ersvd) (h6 : s.sync = t.sync)
    (h7 : s.preCnt = t.preCnt) (h8 : s.params = t.params) (h9 : s.host = t.host) (h10 : s.line = t.line)
    (h11 : s.cycle = t.cycle) (h12 : s.rdata = t.rdata) : s = t := by
  cases s; cases t
  simp only [State.engine, Engine.mk.injEq] at *
  simp_all

/-- A tick's effect on the engine depends on the engine, the parameters, CRCRX and the sample alone. -/
theorem tickStep_congr {s t : State} (b : Bool) (h : s.engine = t.engine) (hp : s.params = t.params) (hc : s.crcrx = t.crcrx) :
    (tickStep b s).engine = (tickStep b t).engine := by
  cases s with | mk done present pfail rbit puen crcrx txdata rxdata crc ebusy ersvd sync preCnt op ph timer pcnt bitcnt shreg params host line cycle rdata
  cases t
  simp only [State.engine, Engine.mk.injEq] at h
  obtain ⟨rfl, rfl, rfl, rfl, rfl, rfl, rfl, rfl, rfl, rfl, rfl, rfl⟩ := h
  cases hp; cases hc
  cases ph <;>
    simp only [tickStep, timedTick, endPhase, resetSequenceEnd, readSample, readSlotEnd, readByteDone, writeSlotEnd,
      enterWriteSlot, presenceWaitTick, presenceLowTick, complete, enter, startPresence, dur] <;>
    (repeat' split) <;> rfl

/-! ## The host's writes -/
theorem hostAfter_of_writes {s : State} {r : Reg} {v : Byte} (h : HostWrites s r v) : hostAfter s = writeAfter r v s := by
  obtain ⟨h1, h2, h3, h4⟩ := h
  simp only [hostAfter, h2, h3, h4, regAt_regAddr, if_true]

theorem hostWrites_cases (s : State) (h : s.port.rstN = true) :
    (∃ r v, HostWrites s r v) ∨ (s.port.we = false ∧ hostAfter s = s) := by
  cases hw : s.port.we
  · right; exact ⟨rfl, by simp [hostAfter, hw]⟩
  · left; exact ⟨_, _, h, hw, (regAddr_regAt _).symm, rfl⟩

theorem HostWrites.unique {s : State} {r r' : Reg} {v v' : Byte} (h : HostWrites s r v) (h' : HostWrites s r' v') : r = r' ∧ v = v' := by
  refine ⟨?_, h.2.2.2.symm.trans h'.2.2.2⟩
  have := h.2.2.1.symm.trans h'.2.2.1
  rw [← regAt_regAddr r, this, regAt_regAddr]

theorem accepts_false_of_busy {s : State} (h : s.busy = true) : accepts s = false := by
  by_contra hc
  obtain ⟨_, _, _, h1, _⟩ := (accepts_iff s).1 (by simpa using hc)
  exact (busy_iff s).1 h h1

theorem accepts_false_of_we {s : State} (h : s.port.we = false) : accepts s = false := by
  by_contra hc
  obtain ⟨_, _, ⟨_, h1, _⟩, _⟩ := (accepts_iff s).1 (by simpa using hc)
  rw [h] at h1; cases h1

theorem finish_congr {s s' t t' : State} (he : s.engine = s'.engine) (hp : s.params = s'.params) (hc : s.crcrx = s'.crcrx) (hpre : s.preCnt = s'.preCnt)
   (hsy : s.sync = s'.sync) (ht : t.engine = t'.engine) :
   (finishEdge s t).engine = (finishEdge s' t').engine := by
  rw [finishEdge_engine, finishEdge_engine]
  have h1 : s.busy = s'.busy := by
    have : s.op = s'.op := congrArg Engine.op he
    simp [State.busy, this]
  have h2 : s.tick = s'.tick := by simp [State.tick, hpre, hp]
  have h3 : s.sample = s'.sample := by simp [State.sample, hsy]
  rw [h1, h2, h3]
  split
  · exact tickStep_congr _ he hp hc
  · exact ht

theorem hostRead_withHost (s : State) (l : List PortCycle) (a : Addr) : hostRead { s with host := l } a = hostRead s a := rfl

theorem hostRead_blockReset (s : State) (a : Addr) : hostRead (blockReset s) a = hostRead (State.resetOf s.params) a := rfl

theorem readPort_eq (s : State) : s.readPort = (if s.port.re then hostRead (if s.port.rstN then s else State.resetOf s.params) s.port.addr else 0x00#8) := by
  unfold State.readPort live
  split
  · split
    · rfl
    · rw [hostRead_blockReset]
  · rfl

theorem readPort_withPort (c : PortCycle) (s : State) (h : c.re = s.port.re) (h' : c.rstN = s.port.rstN) (ha : c.addr = s.port.addr) :
   (withPort c s).readPort = s.readPort := by
  rw [readPort_eq, readPort_eq]
  have : (withPort c s).port = c := rfl
  rw [this, h, h', ha]
  split
  · split
    · rfl
    · rfl
  · rfl

theorem cycleAfter_withoutWrite {s : State} (hr : s.port.rstN = true) :
    cycleAfter (withoutWrite s) = finishEdge (withoutWrite s) (withoutWrite s) := by
  have hwe : (withoutWrite s).port.we = false := rfl
  rw [cycleAfter_edge (withoutWrite s) hr]
  simp [hostAfter, hwe]

/-- An edge whose host access leaves the engine alone, against the same edge with no write. -/
theorem finishEdge_noWrite {s t : State} (ha : accepts s = false) (he : t.engine = s.engine) (hp : t.params = s.params)
    (hr : s.port.rstN = true) :
    finishEdge s t = { cycleAfter (withoutWrite s) with
      puen := t.puen, crcrx := t.crcrx, txdata := t.txdata, ebusy := t.ebusy, ersvd := t.ersvd } := by
  rw [cycleAfter_withoutWrite hr]
  have ha' : accepts (withoutWrite s) = false := accepts_false_of_we rfl
  have f1 := finishEdge_hostSide s t
  have f2 := finishEdge_hostSide (withoutWrite s) (withoutWrite s)
  apply State.eq_of_engine
  · exact finish_congr rfl rfl rfl rfl rfl he
  · exact f1.1
  · exact f1.2.1
  · exact f1.2.2.1
  · exact f1.2.2.2.1
  · exact f1.2.2.2.2.1
  · rfl
  · rw [finishEdge_preCnt, ha]; show _ = (finishEdge (withoutWrite s) (withoutWrite s)).preCnt; rw [finishEdge_preCnt, ha']; rfl
  · rw [f1.2.2.2.2.2, hp]; exact f2.2.2.2.2.2.symm
  · rfl
  · rfl
  · rfl
  · exact (readPort_withPort { s.port with we := false } s rfl rfl rfl).symm

theorem cycleAfter_noWrite_hostSide {s : State} (hr : s.port.rstN = true) :
    (cycleAfter (withoutWrite s)).puen = s.puen ∧ (cycleAfter (withoutWrite s)).crcrx = s.crcrx ∧
    (cycleAfter (withoutWrite s)).txdata = s.txdata ∧ (cycleAfter (withoutWrite s)).ebusy = s.ebusy ∧ (cycleAfter (withoutWrite s)).ersvd = s.ersvd := by
  rw [cycleAfter_withoutWrite hr]
  have f2 := finishEdge_hostSide (withoutWrite s) (withoutWrite s)
  exact ⟨f2.1, f2.2.1, f2.2.2.1, f2.2.2.2.1, f2.2.2.2.2.1⟩

theorem cycleAfter_hostSide {s : State} (hr : s.port.rstN = true) :
    (cycleAfter s).puen = (hostAfter s).puen ∧ (cycleAfter s).crcrx = (hostAfter s).crcrx ∧
    (cycleAfter s).txdata = (hostAfter s).txdata ∧ (cycleAfter s).ebusy = (hostAfter s).ebusy ∧ (cycleAfter s).ersvd = (hostAfter s).ersvd := by
  rw [cycleAfter_edge s hr]
  have f2 := finishEdge_hostSide s (hostAfter s)
  exact ⟨f2.1, f2.2.1, f2.2.2.1, f2.2.2.2.1, f2.2.2.2.2.1⟩

theorem commandAfter_side (c : Byte) (s : State) : (commandAfter c s).puen = s.puen ∧ (commandAfter c s).crcrx = s.crcrx ∧ (commandAfter c s).txdata = s.txdata ∧
   (commandAfter c s).ebusy = (s.ebusy || s.busy) ∧ (commandAfter c s).ersvd = (s.ersvd || (!s.busy && (decodedInstr (decode c)).isNone)) := by
  unfold commandAfter
  split
  · next h => simp [h]
  · next h =>
    have h : s.busy = false := by simpa using h
    split
    · next i hi =>
      have k := acceptEffect_keeps i (accept s)
      simp [k.puen, k.crcrx, k.txdata, k.ebusy, k.ersvd, hi, h]
    · next hi => simp [hi, h]

theorem acceptEffect_withHost (i : Instr) (s : State) (l : List PortCycle) :
    acceptEffect i (accept { s with host := l }) = { acceptEffect i (accept s) with host := l } := by
  cases i <;> try rfl
  cases h : s.txdata.getLsbD 0 <;> simp only [acceptEffect, writeByteAccept, enterWriteSlot, State.operand, accept_txdata, h] <;> rfl

theorem hostAfter_withPort (c : PortCycle) (s : State) (h1 : c.we = s.port.we) (h2 : c.addr = s.port.addr) (h3 : c.wdata = s.port.wdata) :
    hostAfter (withPort c s) = { hostAfter s with host := (withPort c s).host } := by
  have hp : (withPort c s).port = c := rfl
  unfold hostAfter
  rw [hp, h1, h2, h3]
  split
  · cases regAt s.port.addr <;> try rfl
    simp only [writeAfter, commandAfter]
    have : (withPort c s).busy = s.busy := rfl
    rw [this]
    split
    · rfl
    · split
      · exact acceptEffect_withHost _ _ _
      · rfl
  · rfl

/-! ## What a tick can do -/

theorem tickStep_prWait (b : Bool) (s : State) (h : s.ph = .prWait) : tickStep b s = presenceWaitTick b s := by
  unfold tickStep; split <;> simp_all

theorem tickStep_prLow (b : Bool) (s : State) (h : s.ph = .prLow) : tickStep b s = presenceLowTick b s := by
  unfold tickStep; split <;> simp_all

theorem tickStep_count (b : Bool) (s : State) (h : timed s.ph = true) (h1 : 1 < s.timer) : tickStep b s = { s with timer := s.timer - 1 } := by
  rw [tickStep_timed b s (by intro hx; rw [hx] at h; cases h) (by intro hx; rw [hx] at h; cases h), timedTick, if_pos h1]

theorem tickStep_end (b : Bool) (s : State) (h : timed s.ph = true) (h1 : s.timer ≤ 1) : tickStep b s = endPhase b s := by
  rw [tickStep_timed b s (by intro hx; rw [hx] at h; cases h) (by intro hx; rw [hx] at h; cases h), timedTick, if_neg (by omega)]

theorem tickStep_params (b : Bool) (s : State) : (tickStep b s).params = s.params := by
  cases hp : s.ph <;>
    simp only [tickStep, hp, timedTick, endPhase, resetSequenceEnd, readSample, readSlotEnd, readByteDone, writeSlotEnd,
      enterWriteSlot, presenceWaitTick, presenceLowTick, complete, enter, startPresence] <;>
    (repeat' split) <;> rfl

/-- What a tick can write but for the phase machinery -/
theorem tick_results (b : Bool) (s : State) :
    ((tickStep b s).present = s.present ∧ (tickStep b s).pfail = s.pfail ∨ (s.ph = .prWait ∨ s.ph = .prLow) ∧ (tickStep b s).op = .idle) ∧
    ((tickStep b s).rbit = s.rbit ∨ s.ph = .rdSmp ∧ (tickStep b s).rbit = b) ∧
    ((tickStep b s).rxdata = s.rxdata ∧ (tickStep b s).crc = s.crc ∨
      s.ph = .rdRec ∧ s.op ≠ .readBit ∧ (tickStep b s).op = .idle ∧ (tickStep b s).rxdata = s.shreg ∧
        (tickStep b s).crc = if s.crcrx = true then crc8Byte s.crc s.shreg else s.crc) ∧
    ((tickStep b s).op = s.op ∨
      (tickStep b s).op = .idle ∧ (tickStep b s).ph = .none ∧ (tickStep b s).done = true ∧ (tickStep b s).timer = s.timer ∧
        (tickStep b s).pcnt = s.pcnt ∧ (tickStep b s).bitcnt = s.bitcnt ∧ (tickStep b s).shreg = s.shreg) := by
  by_cases h1 : s.ph = .prWait
  · rw [tickStep_prWait b s h1, presenceWaitTick]; (repeat' split) <;> simp [h1]
  by_cases h2 : s.ph = .prLow
  · rw [tickStep_prLow b s h2, presenceLowTick]; (repeat' split) <;> simp [h2]
  rw [tickStep_timed b s h1 h2, timedTick]
  split
  · simp
  · unfold endPhase
    split
    case h_3 => simp
    case h_8 => simp_all [readSample]
    case h_9 hp =>
      unfold readSlotEnd
      split
      · simp
      · split
        · simp_all [readByteDone]
        · simp
    case h_4 => unfold resetSequenceEnd; split <;> simp
    case h_11 => unfold writeSlotEnd enterWriteSlot; (repeat' split) <;> simp
    case h_13 => unfold writeSlotEnd enterWriteSlot; (repeat' split) <;> simp
    all_goals simp

theorem engine_fields {s t : State} (h : s.engine = t.engine) : s.op = t.op ∧ s.ph = t.ph ∧ s.timer = t.timer ∧ s.pcnt = t.pcnt ∧ s.bitcnt = t.bitcnt ∧
   s.shreg = t.shreg ∧ s.done = t.done ∧ s.present = t.present ∧ s.pfail = t.pfail ∧ s.rbit = t.rbit ∧ s.rxdata = t.rxdata ∧ s.crc = t.crc := by
  simpa [State.engine] using h

theorem cycle_engine {s : State} (hr : s.port.rstN = true) (hb : s.busy = true) :
   (cycleAfter s).engine = if s.tick then (tickStep s.sample s).engine else s.engine := by
  rw [cycleAfter_edge s hr, finishEdge_engine, hb, (hostAfter_busy s hb).1]; simp

theorem cycle_engine_idle {s : State} (hr : s.port.rstN = true) (hb : s.busy = false) :
   (cycleAfter s).engine = (hostAfter s).engine := by
  rw [cycleAfter_edge s hr, finishEdge_engine, hb]; simp

theorem busy_of_engine {s t : State} (h : s.engine = t.engine) : s.busy = t.busy := by
  unfold State.busy; rw [(engine_fields h).1]

end Sys2Proof.Machine
end

