-- ==== Sys2Proof/Laws/Invariant.lean ====
section
/-! SUPPORT. The part of the invariant that is about the engine's registers, and that each operation of the engine keeps it. -/

namespace Sys2Proof.Machine

/-- The part of the invariant about the engine's registers. -/
structure EngineInvariant (s : State) : Prop where
  phase : phaseOf s.op s.ph = true
  timerRuns : timed s.ph = true → 1 ≤ s.timer ∧ s.timer ≤ dur s.params s.ph
  timerFits : s.timer ≤ s.params.cntMax
  polls : s.ph = .prWait → s.pcnt < s.params.pWaitMax
  lowSamples : s.ph = .prLow → 1 ≤ s.pcnt ∧ s.pcnt ≤ s.params.pLowMax
  pcntFits : s.pcnt ≤ s.params.cntMax
  oneBit : s.op = .readBit → s.bitcnt = 0#3
  notDone : s.busy = true → s.done = false
  oneOutcome : s.present = true → s.pfail = .none
  noOutcomeYet : checksPresence s.op = true → s.present = false ∧ s.pfail = .none
  slotBit : s.op = .writeByte → (s.shreg.getLsbD 0 = true ↔ s.ph = .wr1Lo ∨ s.ph = .wr1Rel)

theorem Invariant.engineInvariant {s : State} (h : Invariant s) : EngineInvariant s :=
  ⟨h.phase, h.timerRuns, h.timerFits, h.polls, h.lowSamples, h.pcntFits, h.oneBit, h.notDone, h.oneOutcome, h.noOutcomeYet, h.slotBit⟩

theorem EngineInvariant.of_engine {s t : State} (h : EngineInvariant s) (he : t.engine = s.engine) (hp : t.params = s.params) : EngineInvariant t := by
  cases s; cases t
  simp only [State.engine, Engine.mk.injEq] at he
  obtain ⟨rfl, rfl, rfl, rfl, rfl, rfl, rfl, rfl, rfl, rfl, rfl, rfl⟩ := he
  cases hp
  exact ⟨h.phase, h.timerRuns, h.timerFits, h.polls, h.lowSamples, h.pcntFits, h.oneBit, h.notDone, h.oneOutcome, h.noOutcomeYet, h.slotBit⟩


theorem EngineInvariant.countDown {s : State} (h : EngineInvariant s) (h1 : 1 < s.timer) :
    EngineInvariant { s with timer := s.timer - 1 } := by
  refine ⟨h.phase, fun ht => ?_, ?_, h.polls, h.lowSamples, h.pcntFits, h.oneBit, h.notDone, h.oneOutcome, h.noOutcomeYet, h.slotBit⟩
  · have := h.timerRuns ht
    show 1 ≤ s.timer - 1 ∧ s.timer - 1 ≤ dur s.params s.ph
    omega
  · have := h.timerFits
    show s.timer - 1 ≤ s.params.cntMax
    omega

theorem EngineInvariant.enter {s : State} (h : EngineInvariant s) (hl : s.params.legal = true) {ph : Phase} (ht : timed ph = true)
    (hp : phaseOf s.op ph = true) (hs : s.op = .writeByte → (s.shreg.getLsbD 0 = true ↔ ph = .wr1Lo ∨ ph = .wr1Rel)) :
    EngineInvariant (enter ph s) := by
  have hd := legal_dur hl ht
  refine ⟨hp, fun _ => ⟨hd.1, Nat.le_refl _⟩, hd.2, ?_, ?_, h.pcntFits, h.oneBit, h.notDone, h.oneOutcome, h.noOutcomeYet, hs⟩
  · intro hx; change ph = _ at hx; rw [hx] at ht; cases ht
  · intro hx; change ph = _ at hx; rw [hx] at ht; cases ht

theorem complete_invariant {s : State} (h1 : s.timer ≤ s.params.cntMax) (h2 : s.pcnt ≤ s.params.cntMax)
    (h3 : s.present = true → s.pfail = .none) : EngineInvariant (complete s) := by
  refine ⟨rfl, ?_, h1, ?_, ?_, h2, ?_, ?_, h3, ?_, ?_⟩ <;> intro h <;> exact absurd h (by simp [timed, checksPresence, State.busy])

theorem EngineInvariant.startPresence {s : State} (h : EngineInvariant s) (hl : s.params.legal = true) (hp : checksPresence s.op = true) :
    EngineInvariant (startPresence s) := by
  obtain ⟨-, ⟨-, hw, -⟩, -⟩ := (Params.legal_iff _).1 hl
  refine ⟨?_, ?_, h.timerFits, fun _ => hw, ?_, Nat.zero_le _, h.oneBit, h.notDone, h.oneOutcome, h.noOutcomeYet, ?_⟩
  · show phaseOf s.op .prWait = true
    revert hp; cases s.op <;> decide
  · intro h; cases h
  · intro h; cases h
  · intro h'; change s.op = _ at h'; rw [h'] at hp; cases hp

theorem endPhase_invariant {b : Bool} {s : State} (h : EngineInvariant s) (hl : s.params.legal = true) (hb : s.busy = true) :
    EngineInvariant (endPhase b s) := by
  have hph := h.phase
  unfold endPhase
  cases hp : s.ph <;> rw [hp] at hph <;> dsimp only
  case none => exact h
  case prWait => exact h
  case prLow => exact h
  case rstHi => exact h.enter hl rfl (by revert hph; cases s.op <;> decide) (by intro ho; rw [ho] at hph; cases hph)
  case rstLo => exact h.enter hl rfl (by revert hph; cases s.op <;> decide) (by intro ho; rw [ho] at hph; cases hph)
  case rstRel =>
    unfold resetSequenceEnd
    split
    · exact complete_invariant h.timerFits h.pcntFits h.oneOutcome
    · next ho =>
      refine h.startPresence hl ?_
      revert hph ho; cases s.op <;> decide
  case rdLo => exact h.enter hl rfl (by revert hph; cases s.op <;> decide) (by intro ho; rw [ho] at hph; cases hph)
  case rdSmp =>
    have h' : EngineInvariant { s with rbit := b, shreg := if s.op = .readByte then shiftIn b s.shreg else s.shreg } := by
      refine ⟨h.phase, h.timerRuns, h.timerFits, h.polls, h.lowSamples, h.pcntFits, h.oneBit, h.notDone, h.oneOutcome, h.noOutcomeYet, ?_⟩
      intro ho; change s.op = _ at ho; rw [ho] at hph; cases hph
    exact h'.enter hl rfl (by revert hph; show _ → phaseOf s.op .rdRec = true; cases s.op <;> decide)
      (by intro ho; change s.op = _ at ho; rw [ho] at hph; cases hph)
  case rdRec =>
    unfold readSlotEnd
    split
    · exact complete_invariant h.timerFits h.pcntFits h.oneOutcome
    · next ho =>
      split
      · exact complete_invariant h.timerFits h.pcntFits h.oneOutcome
      · have h' : EngineInvariant { s with bitcnt := s.bitcnt + 1#3 } :=
          ⟨h.phase, h.timerRuns, h.timerFits, h.polls, h.lowSamples, h.pcntFits, fun hx => absurd hx ho, h.notDone, h.oneOutcome,
            h.noOutcomeYet, h.slotBit⟩
        exact h'.enter hl rfl (by revert hph; show _ → phaseOf s.op .rdLo = true; cases s.op <;> decide)
          (by intro ho; change s.op = _ at ho; rw [ho] at hph; cases hph)
  case wr1Lo =>
    have ho : s.op = .writeByte := by revert hph; cases s.op <;> decide
    exact h.enter hl rfl (by rw [ho]; rfl) (fun _ => by simpa [hp] using h.slotBit ho)
  case wr0Lo =>
    have ho : s.op = .writeByte := by revert hph; cases s.op <;> decide
    exact h.enter hl rfl (by rw [ho]; rfl) (fun _ => by simpa [hp] using h.slotBit ho)
  all_goals
    have ho : s.op = .writeByte := by revert hph; cases s.op <;> decide
    unfold writeSlotEnd
    split
    · exact complete_invariant h.timerFits h.pcntFits h.oneOutcome
    · have hd := h.notDone hb
      unfold enterWriteSlot
      have hsh : (s.shreg >>> 1).getLsbD 0 = s.shreg.getLsbD 1 := by simp
      split
      · next h1 =>
        have d := legal_dur hl (ph := .wr1Lo) rfl
        refine ⟨by show phaseOf s.op .wr1Lo = true; rw [ho]; rfl, fun _ => ⟨d.1, Nat.le_refl _⟩, d.2, nofun, nofun, h.pcntFits,
          fun hx => ?_, h.notDone, h.oneOutcome, h.noOutcomeYet, fun _ => ?_⟩
        · change s.op = _ at hx; rw [ho] at hx; cases hx
        · show (s.shreg >>> 1).getLsbD 0 = true ↔ _
          rw [hsh]; simp [h1]
      · next h1 =>
        have d := legal_dur hl (ph := .wr0Lo) rfl
        refine ⟨by show phaseOf s.op .wr0Lo = true; rw [ho]; rfl, fun _ => ⟨d.1, Nat.le_refl _⟩, d.2, nofun, nofun, h.pcntFits,
          fun hx => ?_, h.notDone, h.oneOutcome, h.noOutcomeYet, fun _ => ?_⟩
        · change s.op = _ at hx; rw [ho] at hx; cases hx
        · show (s.shreg >>> 1).getLsbD 0 = true ↔ _
          rw [hsh]; exact ⟨fun hx => absurd hx h1, fun hx => by rcases hx with hx | hx <;> exact absurd hx (by simp)⟩

theorem tickStep_invariant {b : Bool} {s : State} (h : EngineInvariant s) (hl : s.params.legal = true) (hb : s.busy = true) :
    EngineInvariant (tickStep b s) := by
  obtain ⟨-, -, -, ⟨-, hwf, hlf⟩, -⟩ := (Params.legal_iff _).1 hl
  have hph := h.phase
  by_cases hw : s.ph = .prWait
  · have hc : checksPresence s.op = true := by rw [hw] at hph; revert hph; cases s.op <;> decide
    have hno := h.noOutcomeYet hc
    have hpl := h.polls hw
    rw [tickStep_prWait b s hw, presenceWaitTick]
    split
    · refine ⟨?_, nofun, h.timerFits, nofun, fun _ => ⟨Nat.le_refl _, ?_⟩, ?_, h.oneBit, h.notDone, h.oneOutcome, h.noOutcomeYet, ?_⟩
      · show phaseOf s.op .prLow = true; revert hc; cases s.op <;> decide
      · show 1 ≤ s.params.pLowMax; have := (Params.legal_iff _).1 hl; omega
      · show 1 ≤ s.params.cntMax; omega
      · intro ho; change s.op = _ at ho; rw [ho] at hc; cases hc
    · split
      · exact complete_invariant h.timerFits h.pcntFits (by simp [hno])
      · next hn =>
        refine ⟨h.phase, h.timerRuns, h.timerFits, fun _ => ?_, ?_, ?_, h.oneBit, h.notDone, h.oneOutcome, h.noOutcomeYet, h.slotBit⟩
        · show s.pcnt + 1 < s.params.pWaitMax; omega
        · intro hx; change s.ph = _ at hx; rw [hw] at hx; cases hx
        · show s.pcnt + 1 ≤ s.params.cntMax; omega
  · by_cases hlo : s.ph = .prLow
    · have hc : checksPresence s.op = true := by rw [hlo] at hph; revert hph; cases s.op <;> decide
      have hno := h.noOutcomeYet hc
      have hpl := h.lowSamples hlo
      rw [tickStep_prLow b s hlo, presenceLowTick]
      split
      · split
        · exact complete_invariant h.timerFits h.pcntFits (by simp [hno])
        · exact complete_invariant h.timerFits h.pcntFits (by simp [hno])
      · split
        · exact complete_invariant h.timerFits h.pcntFits (by simp [hno])
        · next hn =>
          refine ⟨h.phase, h.timerRuns, h.timerFits, fun hx => ?_, fun _ => ⟨?_, ?_⟩, ?_, h.oneBit, h.notDone, h.oneOutcome, h.noOutcomeYet, h.slotBit⟩
          · change s.ph = _ at hx; exact absurd hx hw
          · show 1 ≤ s.pcnt + 1; omega
          · show s.pcnt + 1 ≤ s.params.pLowMax; omega
          · show s.pcnt + 1 ≤ s.params.cntMax; omega
    · rw [tickStep_timed _ _ hw hlo]
      unfold timedTick
      split
      · next h1 => exact h.countDown h1
      · exact endPhase_invariant h hl hb

theorem acceptEffect_invariant {i : Instr} {s : State} (h : EngineInvariant s) (hl : s.params.legal = true) (hidle : s.op = .idle) :
    EngineInvariant (acceptEffect i (accept s)) := by
  have hph := h.phase
  have hnone : s.ph = .none := by rw [hidle] at hph; simpa [phaseOf] using hph
  have d := fun ph => legal_dur hl (ph := ph)
  obtain ⟨-, ⟨-, hw, -⟩, -⟩ := (Params.legal_iff _).1 hl
  have ht := h.timerFits
  have hp := h.pcntFits
  have ho := h.oneOutcome
  cases i
  case nop => exact ⟨h.phase, h.timerRuns, h.timerFits, h.polls, h.lowSamples, h.pcntFits, h.oneBit, fun hx => absurd hidle ((busy_iff _).1 hx), h.oneOutcome, h.noOutcomeYet, h.slotBit⟩
  case crcClear => exact ⟨h.phase, h.timerRuns, h.timerFits, h.polls, h.lowSamples, h.pcntFits, h.oneBit, fun hx => absurd hidle ((busy_iff _).1 hx), h.oneOutcome, h.noOutcomeYet, h.slotBit⟩
  case crcFeed => exact ⟨h.phase, h.timerRuns, h.timerFits, h.polls, h.lowSamples, h.pcntFits, h.oneBit, fun hx => absurd hidle ((busy_iff _).1 hx), h.oneOutcome, h.noOutcomeYet, h.slotBit⟩
  case reset => exact ⟨rfl, fun _ => ⟨(d .rstHi rfl).1, Nat.le_refl _⟩, (d .rstHi rfl).2, nofun, nofun, hp, nofun, fun _ => rfl, ho, nofun, nofun⟩
  case presence => exact ⟨rfl, nofun, ht, fun _ => hw, nofun, Nat.zero_le _, nofun, fun _ => rfl, nofun, fun _ => ⟨rfl, rfl⟩, nofun⟩
  case rstpres => exact ⟨rfl, fun _ => ⟨(d .rstHi rfl).1, Nat.le_refl _⟩, (d .rstHi rfl).2, nofun, nofun, hp, nofun, fun _ => rfl, nofun, fun _ => ⟨rfl, rfl⟩, nofun⟩
  case readBit => exact ⟨rfl, fun _ => ⟨(d .rdLo rfl).1, Nat.le_refl _⟩, (d .rdLo rfl).2, nofun, nofun, hp, fun _ => rfl, fun _ => rfl, ho, nofun, nofun⟩
  case readByte => exact ⟨rfl, fun _ => ⟨(d .rdLo rfl).1, Nat.le_refl _⟩, (d .rdLo rfl).2, nofun, nofun, hp, nofun, fun _ => rfl, ho, nofun, nofun⟩
  case writeByte =>
    show EngineInvariant (enterWriteSlot (s.txdata.getLsbD 0) _)
    cases hb : s.txdata.getLsbD 0
    · exact ⟨rfl, fun _ => ⟨(d .wr0Lo rfl).1, Nat.le_refl _⟩, (d .wr0Lo rfl).2, nofun, nofun, hp, nofun, fun _ => rfl, ho, nofun, fun _ => by
        show s.txdata.getLsbD 0 = true ↔ Phase.wr0Lo = _ ∨ Phase.wr0Lo = _; rw [hb]; decide⟩
    · exact ⟨rfl, fun _ => ⟨(d .wr1Lo rfl).1, Nat.le_refl _⟩, (d .wr1Lo rfl).2, nofun, nofun, hp, nofun, fun _ => rfl, ho, nofun, fun _ => by
        show s.txdata.getLsbD 0 = true ↔ Phase.wr1Lo = _ ∨ Phase.wr1Lo = _; rw [hb]; decide⟩

theorem hostAfter_invariant {s : State} (h : EngineInvariant s) (hl : s.params.legal = true) : EngineInvariant (hostAfter s) := by
  unfold hostAfter
  split
  · unfold writeAfter
    split
    · unfold commandAfter
      split
      · exact h.of_engine rfl rfl
      · next hb =>
        split
        · exact acceptEffect_invariant h hl (by simpa [State.busy] using hb)
        · exact h.of_engine rfl rfl
    all_goals exact h.of_engine rfl rfl
  · exact h

theorem resetOf_engineInvariant (p : Params) : EngineInvariant (State.resetOf p) :=
  ⟨rfl, nofun, Nat.zero_le _, nofun, nofun, Nat.zero_le _, nofun, nofun, nofun, nofun, nofun⟩

end Sys2Proof.Machine
end

