-- ==== Sys2Proof/Laws/PerInstr.lean ====
section
/-! SUPPORT. What holds of every command as syntax, one lemma per constructor: its byte is of format C and decodes to it alone. -/

namespace Sys2Proof.Laws

/-- The byte of `i` is well formed, decodes to `i`, and no other byte does (30_encoding.md R81, R83, R85). -/
def RoundTrip.Statement (i : Instr) : Prop :=
  wellFormedCommand (encode i) = true ∧ decode (encode i) = .command i ∧ ∀ c, decode c = .command i → c = encode i

theorem RoundTrip.nop : RoundTrip.Statement .nop := ⟨rfl, rfl, fun c => Machine.encode_of_decode c _⟩

theorem RoundTrip.reset : RoundTrip.Statement .reset := ⟨rfl, rfl, fun c => Machine.encode_of_decode c _⟩

theorem RoundTrip.presence : RoundTrip.Statement .presence := ⟨rfl, rfl, fun c => Machine.encode_of_decode c _⟩

theorem RoundTrip.rstpres : RoundTrip.Statement .rstpres := ⟨rfl, rfl, fun c => Machine.encode_of_decode c _⟩

theorem RoundTrip.readBit : RoundTrip.Statement .readBit := ⟨rfl, rfl, fun c => Machine.encode_of_decode c _⟩

theorem RoundTrip.readByte : RoundTrip.Statement .readByte := ⟨rfl, rfl, fun c => Machine.encode_of_decode c _⟩

theorem RoundTrip.writeByte : RoundTrip.Statement .writeByte := ⟨rfl, rfl, fun c => Machine.encode_of_decode c _⟩

theorem RoundTrip.crcClear : RoundTrip.Statement .crcClear := ⟨rfl, rfl, fun c => Machine.encode_of_decode c _⟩

theorem RoundTrip.crcFeed : RoundTrip.Statement .crcFeed := ⟨rfl, rfl, fun c => Machine.encode_of_decode c _⟩

end Sys2Proof.Laws
end

