-- ==== Sys2Proof/Laws/Run.lean ====
section
/-! SUPPORT. Runs of several clock cycles: how they compose, one tick period, and one timed phase. -/

namespace Sys2Proof.Machine

/-- `n` clock cycles of a legal instance. -/
def cyclesAfter : Nat → State → State
  | 0, s => s
  | n + 1, s => cyclesAfter n (cycleAfter s)

@[simp] theorem cyclesAfter_zero (s : State) : cyclesAfter 0 s = s := rfl

theorem cyclesAfter_add (m n : Nat) (s : State) : cyclesAfter (m + n) s = cyclesAfter n (cyclesAfter m s) := by
  induction m generalizing s with
  | zero => rw [Nat.zero_add]; rfl
  | succ m ih => rw [Nat.succ_add]; exact ih (cycleAfter s)

theorem cyclesAfter_succ (n : Nat) (s : State) : cyclesAfter (n + 1) s = cycleAfter (cyclesAfter n s) := cyclesAfter_add n 1 s

@[simp] theorem cyclesAfter_params (n : Nat) (s : State) : (cyclesAfter n s).params = s.params := by
  induction n with
  | zero => rfl
  | succ n ih => rw [cyclesAfter_succ, cycleAfter_params, ih]

theorem cyclesAfter_host (n : Nat) (s : State) : (cyclesAfter n s).host = s.host.drop n := by
  induction n with
  | zero => rfl
  | succ n ih => rw [cyclesAfter_succ, cycleAfter_host, ih, List.tail_drop]

/-- A run of a legal instance never stops, and ends in `cyclesAfter`. -/
theorem runs_iff {s : State} (h : s.params.legal = true) (n : Nat) (t : State) : Runs n s t ↔ t = cyclesAfter n s := by
  unfold Runs
  induction n generalizing s with
  | zero =>
    constructor
    · intro h; injection h with h; exact h.symm
    · intro h; rw [h]; rfl
  | succ n ih =>
    have hs : Sys2Proof.core.step s = .next (cycleAfter s) := step_eq s h
    have hr : Sys2Proof.core.run (n + 1) s = Sys2Proof.core.run n (cycleAfter s) := by
      simp only [Host.Core.run, hs]
    rw [hr]
    exact ih (by rw [cycleAfter_params]; exact h)

theorem runs_cyclesAfter {s : State} (h : s.params.legal = true) (n : Nat) : Runs n s (cyclesAfter n s) := (runs_iff h n _).2 rfl

theorem ResetFree.port {n : Nat} {s : State} (h : ResetFree n s) {m : Nat} (hm : m < n) : (cyclesAfter m s).port.rstN = true := by
  unfold State.port
  rw [cyclesAfter_host, List.headD_eq_head?_getD, List.head?_drop]
  cases hg : s.host[m]? with
  | none => rfl
  | some c =>
    apply h c
    rw [List.mem_take_iff_getElem]
    obtain ⟨hi, rfl⟩ := List.getElem?_eq_some_iff.1 hg
    exact ⟨m, by omega, rfl⟩

theorem ResetFree.mono {n m : Nat} {s : State} (h : ResetFree n s) (hm : m ≤ n) : ResetFree m s := by
  intro c hc
  apply h c
  rw [List.mem_take_iff_getElem] at hc ⊢
  obtain ⟨i, hi, rfl⟩ := hc
  exact ⟨i, by omega, rfl⟩

theorem ResetFree.after {n m : Nat} {s : State} (h : ResetFree (m + n) s) : ResetFree n (cyclesAfter m s) := by
  intro c hc
  apply h c
  rw [cyclesAfter_host] at hc
  rw [List.mem_take_iff_getElem] at hc ⊢
  obtain ⟨i, hi, rfl⟩ := hc
  rw [List.length_drop] at hi
  exact ⟨m + i, by omega, by simp⟩

/-! ## One tick period -/

theorem edge_preCnt {s : State} (hr : s.port.rstN = true) (hb : s.busy = true) :
    (cycleAfter s).preCnt = if s.tick then 0 else s.preCnt + 1 := by
  rw [cycleAfter_edge s hr, finishEdge_preCnt, accepts_false_of_busy hb]; rfl

/-- Between two ticks nothing of the engine moves. -/
theorem between_ticks {s : State} (hb : s.busy = true) {n : Nat} (hn : s.preCnt + n < s.params.clkPerTick) (hr : ResetFree n s) :
    (cyclesAfter n s).engine = s.engine ∧ (cyclesAfter n s).preCnt = s.preCnt + n := by
  induction n with
  | zero => exact ⟨rfl, rfl⟩
  | succ n ih =>
    obtain ⟨h1, h2⟩ := ih (by omega) (hr.mono (by omega))
    have hp := hr.port (m := n) (by omega)
    have hb' : (cyclesAfter n s).busy = true := by rw [busy_of_engine h1, hb]
    have ht : (cyclesAfter n s).tick = false := by
      simp only [State.tick, h2, cyclesAfter_params, decide_eq_false_iff_not]; omega
    rw [cyclesAfter_succ]
    refine ⟨?_, ?_⟩
    · rw [cycle_engine hp hb', ht]; exact h1
    · rw [edge_preCnt hp hb', ht, h2]; simp only [Bool.false_eq_true, if_false]; omega

/-- A busy engine's next tick: `d` more cycles, in which the engine stands, and then one `TickStep`. -/
theorem next_tick {s : State} (hb : s.busy = true) {d : Nat} (hd : s.preCnt + d + 1 = s.params.clkPerTick) (hr : ResetFree (d + 1) s) :
    (cyclesAfter d s).engine = s.engine ∧ (cyclesAfter d s).tick = true ∧ (cyclesAfter (d + 1) s).preCnt = 0 ∧
    (cyclesAfter (d + 1) s).engine = (tickStep (cyclesAfter d s).sample (cyclesAfter d s)).engine := by
  obtain ⟨h1, h2⟩ := between_ticks hb (n := d) (by omega) (hr.mono (by omega))
  have hp := hr.port (m := d) (by omega)
  have hb' : (cyclesAfter d s).busy = true := by rw [busy_of_engine h1, hb]
  have ht : (cyclesAfter d s).tick = true := by
    simp only [State.tick, h2, cyclesAfter_params, decide_eq_true_eq]; omega
  refine ⟨h1, ht, ?_, ?_⟩
  · rw [cyclesAfter_succ, edge_preCnt hp hb', ht]; rfl
  · rw [cyclesAfter_succ, cycle_engine hp hb', ht]; rfl

/-! ## One timed phase -/

theorem busy_of_timed {s : State} (hp : phaseOf s.op s.ph = true) (ht : timed s.ph = true) : s.busy = true := by
  rw [busy_iff]
  intro h
  rw [h] at hp
  revert hp ht
  cases s.ph <;> decide

/-- A busy timed phase with `j + 1` ticks left, from the cycle after a tick: in the `n`-th cycle the engine is as at the start but
for the timer, and the phase's end action runs at the last edge. -/
theorem timed_phase {s : State} (hb : s.busy = true) (ht : timed s.ph = true) (hp : s.preCnt = 0) (hk : 1 ≤ s.params.clkPerTick)
    {j : Nat} (hj : s.timer = j + 1) (hr : ResetFree ((j + 1) * s.params.clkPerTick) s) :
    (∀ n, n < (j + 1) * s.params.clkPerTick →
      (cyclesAfter n s).engine = { s.engine with timer := j + 1 - n / s.params.clkPerTick } ∧
      (cyclesAfter n s).preCnt = n % s.params.clkPerTick) ∧
    (cyclesAfter ((j + 1) * s.params.clkPerTick - 1) s).timer = 1 ∧ (cyclesAfter ((j + 1) * s.params.clkPerTick - 1) s).tick = true ∧
    (cyclesAfter ((j + 1) * s.params.clkPerTick) s).preCnt = 0 ∧
    (cyclesAfter ((j + 1) * s.params.clkPerTick) s).engine =
      (endPhase (cyclesAfter ((j + 1) * s.params.clkPerTick - 1) s).sample (cyclesAfter ((j + 1) * s.params.clkPerTick - 1) s)).engine := by
  induction j generalizing s with
  | zero =>
    obtain ⟨k, hk'⟩ : ∃ k, s.params.clkPerTick = k + 1 := ⟨s.params.clkPerTick - 1, by omega⟩
    simp only [Nat.zero_add, Nat.one_mul] at hr ⊢ hj
    obtain ⟨h1, h2, h3, h4⟩ := next_tick hb (d := k) (by omega) (hr.mono (by omega))
    have hf := engine_fields h1
    rw [hk'] at hr ⊢
    refine ⟨fun n hn => ?_, ?_, ?_, h3, ?_⟩
    · obtain ⟨h5, h6⟩ := between_ticks hb (n := n) (by omega) (hr.mono (by omega))
      rw [h5, h6, Nat.div_eq_of_lt hn, Nat.mod_eq_of_lt hn, hp]
      refine ⟨?_, by omega⟩
      simp only [State.engine, hj]
    · rw [Nat.add_sub_cancel, hf.2.2.1, hj]
    · rw [Nat.add_sub_cancel, h2]
    · rw [Nat.add_sub_cancel, h4, tickStep_end _ _ (by rw [hf.2.1]; exact ht) (by rw [hf.2.2.1, hj])]
  | succ j ih =>
    obtain ⟨k, hk'⟩ : ∃ k, s.params.clkPerTick = k + 1 := ⟨s.params.clkPerTick - 1, by omega⟩
    have hsplit : (j + 1 + 1) * s.params.clkPerTick = s.params.clkPerTick + (j + 1) * s.params.clkPerTick := by ring
    have hle : s.params.clkPerTick ≤ (j + 1) * s.params.clkPerTick := Nat.le_mul_of_pos_left _ (by omega)
    obtain ⟨h1, -, h3, h4⟩ := next_tick hb (d := k) (by omega) (hr.mono (by omega))
    have hf := engine_fields h1
    rw [tickStep_count _ _ (by rw [hf.2.1]; exact ht) (by rw [hf.2.2.1]; omega)] at h4
    rw [← hk'] at h3 h4
    have he : (cyclesAfter s.params.clkPerTick s).engine = { s.engine with timer := j + 1 } := by
      rw [h4]
      show ({ (cyclesAfter k s).engine with timer := (cyclesAfter k s).timer - 1 } : Engine) = _
      rw [h1, hf.2.2.1, hj]; rfl
    have hg : (cyclesAfter s.params.clkPerTick s).op = s.op ∧ (cyclesAfter s.params.clkPerTick s).ph = s.ph ∧
        (cyclesAfter s.params.clkPerTick s).timer = j + 1 :=
      ⟨congrArg Engine.op he, congrArg Engine.ph he, congrArg Engine.timer he⟩
    have hb2 : (cyclesAfter s.params.clkPerTick s).busy = true := by rw [busy_iff, hg.1]; exact (busy_iff s).1 hb
    have := ih hb2 (by rw [hg.2.1]; exact ht) h3 (by rw [cyclesAfter_params]; exact hk) hg.2.2
      (by rw [cyclesAfter_params]; exact ResetFree.after (by rw [← hsplit]; exact hr))
    rw [cyclesAfter_params] at this
    obtain ⟨g1, g2, g3, g4, g5⟩ := this
    have hlast : (j + 1 + 1) * s.params.clkPerTick - 1 = s.params.clkPerTick + ((j + 1) * s.params.clkPerTick - 1) := by omega
    refine ⟨fun n hn => ?_, ?_, ?_, ?_, ?_⟩
    · by_cases hlt : n < s.params.clkPerTick
      · obtain ⟨h5, h6⟩ := between_ticks hb (n := n) (by omega) (hr.mono (by omega))
        rw [h5, h6, Nat.div_eq_of_lt hlt, Nat.mod_eq_of_lt hlt, hp]
        refine ⟨?_, by omega⟩
        simp only [State.engine, hj]
        congr
      · obtain ⟨n', rfl⟩ : ∃ n', n = s.params.clkPerTick + n' := ⟨n - s.params.clkPerTick, by omega⟩
        obtain ⟨g, g'⟩ := g1 n' (by omega)
        rw [cyclesAfter_add, g, g', he, Nat.add_mod_left, Nat.add_div_left _ (by omega)]
        refine ⟨?_, rfl⟩
        simp only [Engine.mk.injEq, true_and, and_true]
        omega
    · rw [hlast, cyclesAfter_add]; exact g2
    · rw [hlast, cyclesAfter_add]; exact g3
    · rw [hsplit, cyclesAfter_add]; exact g4
    · rw [hlast, hsplit, cyclesAfter_add, cyclesAfter_add]; exact g5

/-! ## From the accept edge -/

theorem accepted_first {i : Instr} {s : State} (h : Accepted i s) :
    s.port.rstN = true ∧ (cyclesAfter 1 s).engine = (acceptEffect i (accept s)).engine ∧ (cyclesAfter 1 s).preCnt = 0 := by
  obtain ⟨hi, ho, hc⟩ := h
  have hw := (commandByte_eq_some s _).1 hc
  have hr := hw.1
  have hb := (busy_eq_false_iff s).2 ho
  have ha : hostAfter s = acceptEffect i (accept s) := by
    rw [hostAfter_of_writes hw]
    simp only [writeAfter, commandAfter, hb, decode_encode, decodedInstr]; rfl
  have hacc : accepts s = true := (accepts_iff s).2 ⟨_, i, hw, ho, decode_encode i⟩
  refine ⟨hr, ?_, ?_⟩
  · show (cycleAfter s).engine = _
    rw [cycle_engine_idle hr hb, ha]
  · show (cycleAfter s).preCnt = _
    rw [cycleAfter_edge s hr, finishEdge_preCnt, hacc, if_pos rfl, hostAfter_accepts s hacc]

theorem busy_of {t : State} {e : Engine} (h : t.engine = e) (ho : e.op ≠ .idle) : t.busy = true := by
  subst h; exact (busy_iff t).2 ho

/-- A timed phase entered `n₀` cycles after `s`. -/
theorem phase_at {s : State} (hl : s.params.legal = true) {n₀ : Nat} {e : Engine} (he : (cyclesAfter n₀ s).engine = e)
    (hp : (cyclesAfter n₀ s).preCnt = 0) (ht : timed e.ph = true) (hd : e.timer = dur s.params e.ph) (ho : e.op ≠ .idle)
    {N : Nat} (hN : N = n₀ + dur s.params e.ph * s.params.clkPerTick) (hr : ResetFree N s) :
    (∀ n, n₀ ≤ n → n < N → ∃ j, (cyclesAfter n s).engine = { e with timer := j }) ∧
    (cyclesAfter N s).preCnt = 0 ∧ n₀ < N ∧
    (cyclesAfter (N - 1) s).engine = { e with timer := 1 } ∧
    (cyclesAfter N s).engine = (endPhase (cyclesAfter (N - 1) s).sample (cyclesAfter (N - 1) s)).engine := by
  have hk := Params.legal_clk hl
  obtain ⟨hd1, -⟩ := legal_dur hl ht
  obtain ⟨j, hj⟩ : ∃ j, dur s.params e.ph = j + 1 := ⟨dur s.params e.ph - 1, by omega⟩
  have h1 : (cyclesAfter n₀ s).op = e.op := congrArg Engine.op he
  have h2 : (cyclesAfter n₀ s).ph = e.ph := congrArg Engine.ph he
  have h3 : (cyclesAfter n₀ s).timer = e.timer := congrArg Engine.timer he
  have hb : (cyclesAfter n₀ s).busy = true := by rw [busy_iff, h1]; exact ho
  rw [hj] at hN hd
  have := timed_phase (s := cyclesAfter n₀ s) hb (by rw [h2]; exact ht) hp (by rw [cyclesAfter_params]; exact hk) (j := j)
    (by rw [h3, hd]) (by rw [cyclesAfter_params]; exact ResetFree.after (by rw [← hN]; exact hr))
  rw [cyclesAfter_params] at this
  obtain ⟨g1, g2, g3, g4, g5⟩ := this
  have hpos : 1 ≤ (j + 1) * s.params.clkPerTick := Nat.mul_pos (by omega) hk
  have hlast : N - 1 = n₀ + ((j + 1) * s.params.clkPerTick - 1) := by omega
  refine ⟨fun n h4 h5 => ?_, ?_, by omega, ?_, ?_⟩
  · obtain ⟨m, rfl⟩ : ∃ m, n = n₀ + m := ⟨n - n₀, by omega⟩
    have := (g1 m (by omega)).1
    rw [he] at this
    rw [cyclesAfter_add]
    exact ⟨_, this⟩
  · rw [hN, cyclesAfter_add]; exact g4
  · have := (g1 ((j + 1) * s.params.clkPerTick - 1) (by omega)).1
    rw [hlast, cyclesAfter_add]
    rw [he] at this
    rw [this]
    have ht1 := congrArg Engine.timer this
    have : (j + 1 - ((j + 1) * s.params.clkPerTick - 1) / s.params.clkPerTick) = 1 := ht1.symm.trans g2
    rw [this]
  · rw [hlast, hN, cyclesAfter_add, cyclesAfter_add]; exact g5

end Sys2Proof.Machine
end

