-- ==== Sys2Proof/Tests/Slice0.lean ====
section
/-! SUPPORT. Tests of the model: expected values from spec/95_test_vectors.md and the rules' own examples, the refusals of
WellFormed, the words of the opcode map, and for every obligation with hypotheses a state that meets them. -/

namespace Sys2Proof.Tests

open Sys2Proof.Machine

/-! ## Helpers -/

/-- Small legal parameters, two clock cycles a tick. -/
def tiny : Params where
  clkPerTick := 2
  tRstH := 1
  tRstL := 5
  tRstR := 1
  pWaitMax := 2
  pLowMin := 2
  pLowMax := 3
  tRl := 1
  tRs := 1
  tRrec := 2
  tW1l := 1
  tW1r := 2
  tW0l := 2
  tW0r := 2
  cntW := 3
  syncStages := 2

/-- An idle machine after reset whose host makes the access `c`. -/
def idleWith (c : PortCycle) : State := { State.resetOf tiny with host := [c] }

/-- A machine in phase `ph` of command `op` with `t` ticks left, at a tick edge. -/
def at_ (op : Op) (ph : Phase) (t : Nat) : State := { State.resetOf tiny with op := op, ph := ph, timer := t, preCnt := 1 }

/-- The default parameters with one clock cycle a tick: every edge of a running command is a tick. -/
def nominalAt (op : Op) (ph : Phase) (t : Nat) : State :=
  { State.resetOf (Params.nominal 1) with op := op, ph := ph, timer := t }

/-- The default machine after reset whose host makes the access `c`. -/
def nominalWith (c : PortCycle) : State := { State.resetOf (Params.nominal 1) with host := [c] }

/-- Whether an outcome is a next state with property `p`. -/
def nextIs (o : Host.Outcome State Fault Refusal) (p : State → Bool) : Bool :=
  match o with
  | .next t => p t
  | .fault _ => false
  | .refused _ => false

/-- STATUS of the state an outcome gives. -/
def statusIs (o : Host.Outcome State Fault Refusal) (v : Byte) : Bool := nextIs o (fun t => hostRead t 1#3 == v)

theorem sampleAt_of {s : State} {n : Nat} {b : Bool} (h : s.params.legal = true) (e : (cyclesAfter n s).sample = b) :
    SampleAt n s b := ⟨_, runs_cyclesAfter h n, e⟩

/-! ## WellFormed (00_scope.md R7, 30_encoding.md R84) -/

theorem test_tiny_legal : tiny.legal = true := by decide

theorem test_clocked_refuses_no_clock :
    ({ tiny with clkPerTick := 0 } : Params).clocked = false ∧ ({ tiny with clkPerTick := 0 } : Params).legal = false := by decide

theorem test_clocked_refuses_no_stage :
    ({ tiny with syncStages := 0 } : Params).clocked = false ∧ ({ tiny with syncStages := 0 } : Params).legal = false := by decide

theorem test_positive_refuses_zero_duration :
    ({ tiny with tRrec := 0 } : Params).positive = false ∧ ({ tiny with tRrec := 0 } : Params).legal = false := by decide

theorem test_positive_refuses_no_poll :
    ({ tiny with pWaitMax := 0 } : Params).positive = false ∧ ({ tiny with pLowMin := 0 } : Params).positive = false := by decide

theorem test_pulse_ordered_refuses_min_above_max :
    ({ tiny with pLowMin := 4 } : Params).pulseOrdered = false ∧ ({ tiny with pLowMin := 4 } : Params).legal = false := by decide

theorem test_counters_fit_refuses_narrow_counter :
    ({ tiny with cntW := 2 } : Params).countersFit = false ∧ ({ tiny with pLowMax := 7 } : Params).countersFit = false ∧
    ({ tiny with pWaitMax := 8 } : Params).countersFit = false ∧ ({ tiny with cntW := 2 } : Params).legal = false := by decide

theorem test_short_is_one_refuses_equal_pulses :
    ({ tiny with tW1l := 2 } : Params).shortIsOne = false ∧ ({ tiny with tW1l := 2 } : Params).legal = false := by decide

theorem test_reset_dominates_refuses_short_reset :
    ({ tiny with tRstL := 4 } : Params).resetDominates = false ∧ ({ tiny with tRstL := 4 } : Params).legal = false := by decide

theorem test_command_refuses_reserved_opcode : wellFormedCommand 0x09#8 = false ∧ wellFormedCommand 0x08#8 = true := by decide

theorem test_command_refuses_reserved_nibble : wellFormedCommand 0x15#8 = false ∧ wellFormedCommand 0x05#8 = true := by decide

theorem test_illegal_instance_refused : step (State.resetOf { tiny with cntW := 2 }) = .refused .illegalParameters := rfl

/-! ## Decoder (95_test_vectors.md L2.1; the words of 30_encoding.md R83 bit by bit) -/

theorem test_decode_engine_family : decode 0b00000000#8 = .command .nop := by decide

theorem test_decode_presence_family :
    decode 0b00000001#8 = .command .reset ∧ decode 0b00000010#8 = .command .presence ∧ decode 0b00000011#8 = .command .rstpres := by
  decide

theorem test_decode_bit_byte_family :
    decode 0b00000100#8 = .command .readBit ∧ decode 0b00000101#8 = .command .readByte ∧ decode 0b00000110#8 = .command .writeByte := by
  decide

theorem test_decode_crc_family : decode 0b00000111#8 = .command .crcClear ∧ decode 0b00001000#8 = .command .crcFeed := by decide

theorem test_decode_reserved :
    decode 0x09#8 = .reservedOpcode ∧ decode 0x0F#8 = .reservedOpcode ∧ decode 0x10#8 = .reservedNibble ∧
    decode 0x15#8 = .reservedNibble ∧ decode 0x85#8 = .reservedNibble ∧ decode 0xFF#8 = .reservedNibble := by decide

theorem test_table_word : decodeTableWord 8 0x06 = some .writeByte ∧ decodeTableWord 8 0x09 = none := by decide

/-! ## Registers (95_test_vectors.md L2.2) -/

theorem test_reset_reads :
    hostRead (State.resetOf (Params.nominal 1)) 1#3 = 0x40#8 ∧ hostRead (State.resetOf (Params.nominal 1)) 2#3 = 0x83#8 := by decide

theorem test_ctrl_write : nextIs (step (nominalWith (.write .ctrl 0xFC#8))) (fun t => hostRead t 2#3 == 0x80#8) = true := by decide

theorem test_status_write_ignored : statusIs (step (nominalWith (.write .status 0xFF#8))) 0x40#8 = true := by decide

theorem test_read_only_writes :
    nextIs (step (nominalWith (.write .rxdata 0x12#8))) (fun t => hostRead t 4#3 == 0x00#8 && hostRead t 6#3 == 0x00#8) = true ∧
    nextIs (step (nominalWith (.write .crc 0x34#8))) (fun t => hostRead t 5#3 == 0x00#8 && hostRead t 6#3 == 0x00#8) = true := by
  decide

theorem test_txdata_write : nextIs (step (nominalWith (.write .txdata 0x5A#8))) (fun t => hostRead t 3#3 == 0x5A#8) = true := by decide

theorem test_err_write_one_to_clear :
    nextIs (step { nominalWith (.write .err 0x01#8) with ebusy := true, ersvd := true }) (fun t => hostRead t 6#3 == 0x02#8) = true ∧
    nextIs (step { nominalWith (.write .err 0xFC#8) with ebusy := true, ersvd := true }) (fun t => hostRead t 6#3 == 0x03#8) = true := by
  decide

theorem test_status_errs : hostRead { State.resetOf (Params.nominal 1) with ersvd := true, done := true } 1#3 = 0xC2#8 := by decide

/-- 60_exceptions.md R195 and 20_memory.md R62: ERRS and CRCZ set, DONE clear. The row of L2.2 that gives STATUS 0x80 here leaves
out CRCZ (log 13). -/
theorem test_reserved_write :
    nextIs (step (nominalWith (.write .cmd 0x09#8))) (fun t => hostRead t 1#3 == 0xC0#8 && hostRead t 6#3 == 0x02#8) = true := by
  decide

theorem test_reserved_while_busy :
    nextIs (step { nominalAt .reset .rstHi 2 with host := [.write .cmd 0x09#8] }) (fun t => hostRead t 6#3 == 0x01#8) = true := by
  decide

/-! ## Commands, one step each -/

/-- 40_engine_timing.md R111. -/
theorem test_nop_sets_done : statusIs (step (nominalWith (.command .nop))) 0x42#8 = true := by decide

/-- 41_reset_presence.md R131: the driver is high from the accept edge. -/
theorem test_reset_accept :
    nextIs (step (nominalWith (.command .reset))) (fun t => hostRead t 1#3 == 0x41#8 && t.dqOe && t.dqO && t.timer == 2) = true := by
  decide

/-- 95_test_vectors.md L2.4: STATUS 0x46 is 0x46 again after RESET. -/
theorem test_reset_completes : statusIs (step { nominalAt .reset .rstRel 1 with present := true }) 0x46#8 = true := by decide

/-- 95_test_vectors.md L2.5: no device, poll 60. -/
theorem test_presence_no_device : statusIs (step { nominalAt .presence .prWait 0 with pcnt := 59 }) 0x4A#8 = true := by decide

/-- 95_test_vectors.md L2.5: the shortest accepted pulse and one too short. -/
theorem test_presence_shortest :
    statusIs (step { nominalAt .presence .prLow 0 with pcnt := 60 }) 0x46#8 = true ∧
    statusIs (step { nominalAt .presence .prLow 0 with pcnt := 59 }) 0x52#8 = true := by decide

/-- 95_test_vectors.md L2.6: a line stuck low. -/
theorem test_rstpres_long :
    statusIs (step { nominalAt .rstpres .prLow 0 with pcnt := 240, sync := [false, false] }) 0x5A#8 = true := by decide

/-- 41_reset_presence.md R135: RST_REL goes on to the presence check. -/
theorem test_rstpres_starts_presence :
    nextIs (step (nominalAt .rstpres .rstRel 1)) (fun t => t.busy && t.ph == .prWait && t.pcnt == 0) = true := by decide

/-- 95_test_vectors.md L2.7: the sample is the older stage of the synchronizer. -/
theorem test_read_bit_sample :
    nextIs (step { nominalAt .readBit .rdSmp 1 with sync := [false, true] }) (fun t => t.rbit && t.ph == .rdRec && t.timer == 70) = true := by
  decide

/-- 95_test_vectors.md L2.7: completion with RBIT = 1. -/
theorem test_read_bit_completes : statusIs (step { nominalAt .readBit .rdRec 1 with rbit := true }) 0x62#8 = true := by decide

/-- 95_test_vectors.md L2.8: RXDATA 0xA5, CRC 0x90, STATUS 0x22. -/
theorem test_read_byte_completes :
    nextIs (step { nominalAt .readByte .rdRec 1 with rbit := true, shreg := 0xA5#8, bitcnt := 7#3 })
      (fun t => hostRead t 1#3 == 0x22#8 && hostRead t 4#3 == 0xA5#8 && hostRead t 5#3 == 0x90#8) = true := by decide

/-- 42_bit_byte.md R152: a sample enters at bit 7. -/
theorem test_read_byte_shift :
    nextIs (step { nominalAt .readByte .rdSmp 1 with shreg := 0x02#8 }) (fun t => t.shreg == 0x81#8) = true := by decide

/-- 42_bit_byte.md R157: bit 0 of 0xA5 is 1. -/
theorem test_write_byte_accept :
    nextIs (step { nominalWith (.command .writeByte) with txdata := 0xA5#8 })
      (fun t => t.ph == .wr1Lo && t.timer == 5 && t.shreg == 0xA5#8) = true := by decide

/-- 42_bit_byte.md R158: bit 1 of 0xA5 is 0; the seventh shift is the last. -/
theorem test_write_byte_next_slot :
    nextIs (step { nominalAt .writeByte .wr1Rel 1 with shreg := 0xA5#8 })
      (fun t => t.ph == .wr0Lo && t.timer == 60 && t.shreg == 0x52#8 && t.bitcnt == 1#3) = true := by decide

/-- 43_crc8.md R172. -/
theorem test_crc_clear : statusIs (step { nominalWith (.command .crcClear) with crc := 0x90#8 }) 0x42#8 = true := by decide

/-- 43_crc8.md R173: 0x01 from 0x00, then 0x5E from 0x5E. -/
theorem test_crc_feed :
    nextIs (step { nominalWith (.command .crcFeed) with txdata := 0x01#8 }) (fun t => hostRead t 5#3 == 0x5E#8) = true ∧
    statusIs (step { nominalWith (.command .crcFeed) with txdata := 0x5E#8, crc := 0x5E#8 }) 0x42#8 = true := by decide

/-- 95_test_vectors.md L2.10 and L2.8. -/
theorem test_crc_values :
    crc8Byte 0x00#8 0x0F#8 = 0x41#8 ∧ crc8Byte 0x00#8 0x80#8 = 0x8C#8 ∧ crc8Byte 0x00#8 0xFF#8 = 0x35#8 := by decide

/-- 95_test_vectors.md L1.1 and L1.6. -/
theorem test_crc_sequence : crc8 0x00#8 [0x01#8] = 0x5E#8 ∧ crc8Byte 0xA0#8 0x00#8 = 0xAF#8 := by decide

/-- 95_test_vectors.md L2.3: a CMD write at the completion edge is dropped with EBUSY. -/
theorem test_write_at_completion_edge :
    nextIs (step { nominalAt .readBit .rdRec 1 with host := [.command .readBit] }) (fun t => !t.busy && t.ebusy && t.done) = true := by
  decide

/-! ## Witnesses: states and operands that meet the hypotheses of each obligation -/

/-- A tick edge in phase `ph` of command `op` with `t` ticks left, the sample being 1. -/
theorem tickEdge_at {op : Op} (ph : Phase) (t : Nat) (h : op ≠ .idle) : TickEdge (at_ op ph t) := ⟨test_tiny_legal, rfl, h, rfl⟩

theorem tiny_invariant : Invariant (State.resetOf tiny) := by constructor <;> decide

theorem idleWith_invariant (c : PortCycle) : Invariant (idleWith c) :=
  let h := tiny_invariant
  ⟨h.legal, h.phase, h.prescaler, h.stages, h.timerRuns, h.timerFits, h.polls, h.lowSamples, h.pcntFits, h.oneBit, h.notDone,
    h.oneOutcome, h.noOutcomeYet, h.slotBit⟩

/-- Poll states of a PRESENCE: at a tick edge, `n` polls or low samples counted, the sample `b`. -/
def polling (ph : Phase) (n : Nat) (b : Bool) : State := { at_ .presence ph 0 with pcnt := n, sync := [true, b] }

/-- A PRESENCE just started, every edge a tick, with the synchronizer and the line to come. -/
def checking (sync line : List Bool) : State :=
  { State.resetOf { tiny with clkPerTick := 1 } with op := .presence, ph := .prWait, sync := sync, line := line }

theorem checking_legal : ({ tiny with clkPerTick := 1 } : Params).legal = true := by decide

theorem checking_invariant (a b : Bool) (line : List Bool) : Invariant (checking [a, b] line) :=
  have h : Invariant (checking [true, true] []) := by constructor <;> decide
  ⟨h.legal, h.phase, h.prescaler, rfl, h.timerRuns, h.timerFits, h.polls, h.lowSamples, h.pcntFits, h.oneBit, h.notDone,
    h.oneOutcome, h.noOutcomeYet, h.slotBit⟩

theorem test_witness_DecoderFollowsTheOpcodeMap : 9 ≤ (0x09#8 : Byte).toNat ∧ 9 ≤ (0x0F#8 : Byte).toNat ∧ 9 ≤ (0x10#8 : Byte).toNat := by
  decide

theorem test_witness_ResetReads :
    tiny.legal = true ∧
    ∃ t : State, t.puen = (State.resetOf tiny).puen ∧ t.crcrx = (State.resetOf tiny).crcrx ∧ t.sample = false :=
  ⟨by decide, { State.resetOf tiny with sync := [true, false] }, rfl, rfl, rfl⟩

theorem test_witness_BlockResetHoldsResetValues :
    ∃ s : State, s.params.legal = true ∧ s.port.rstN = false ∧ s.busy = true ∧ s.port.we = true ∧ s.port.re = true :=
  ⟨{ at_ .reset .rstLo 3 with host := [⟨false, 1#3, true, true, 0x01#8⟩] }, by decide⟩

theorem test_witness_IllegalParametersAreRefused : 1 ≤ 1 ∧ (Params.nominal 1).legal = true := by decide

theorem test_witness_LegalInstanceNeverStops : (idleWith .quiet).params.legal = true ∧ (at_ .reset .rstLo 5).params.legal = true := by
  decide

theorem test_witness_StepRunsTheDecodedCommand :
    ∃ s c, s.params.legal = true ∧ HostWrites s .cmd c ∧ decode c = .command .crcFeed :=
  ⟨idleWith (.command .crcFeed), 0x08#8, by decide, ⟨rfl, rfl, rfl, rfl⟩, rfl⟩

theorem test_witness_ClockEdgeComposition_accept :
    ∃ s : State, s.params.legal = true ∧ s.port.rstN = true ∧
      ∃ c i, HostWrites s .cmd c ∧ s.op = .idle ∧ decode c = .command i :=
  ⟨idleWith (.command .nop), by decide, rfl, 0x00#8, .nop, ⟨rfl, rfl, rfl, rfl⟩, rfl, rfl⟩

theorem test_witness_ClockEdgeComposition_quiet :
    ∃ s : State, s.params.legal = true ∧ s.port.rstN = true ∧ s.port.we = false ∧ s.op ≠ .idle ∧
      s.preCnt = s.params.clkPerTick - 1 ∧ ¬ ∃ c i, HostWrites s .cmd c ∧ s.op = .idle ∧ decode c = .command i :=
  ⟨at_ .reset .rstLo 5, by decide, rfl, rfl, by decide, rfl, fun ⟨_, _, _, h, _⟩ => absurd h (by decide)⟩

theorem test_witness_SynchronizerShifts :
    Invariant (State.resetOf tiny) ∧ (State.resetOf tiny).port.rstN = true ∧ 1 ≤ 1 ∧ 1 < (State.resetOf tiny).params.syncStages :=
  ⟨tiny_invariant, rfl, by decide, by decide⟩

theorem test_witness_SampleIsTheLevelSyncStagesEarlier :
    ∃ s : State, Invariant s ∧ ResetFree (1 + s.params.syncStages) s :=
  ⟨State.resetOf tiny, tiny_invariant, by unfold ResetFree; decide⟩

theorem test_witness_TickStepCountsOrEndsThePhase :
    (TickEdge (at_ .presence .prWait 0) ∧ (at_ .presence .prWait 0).ph = .prWait) ∧
    (TickEdge (at_ .presence .prLow 0) ∧ (at_ .presence .prLow 0).ph = .prLow) ∧
    (TickEdge (at_ .reset .rstLo 2) ∧ 1 < (at_ .reset .rstLo 2).timer) ∧
    (TickEdge (at_ .reset .rstLo 1) ∧ ¬ 1 < (at_ .reset .rstLo 1).timer) :=
  ⟨⟨tickEdge_at _ _ (by decide), rfl⟩, ⟨tickEdge_at _ _ (by decide), rfl⟩, ⟨tickEdge_at _ _ (by decide), by decide⟩,
    ⟨tickEdge_at _ _ (by decide), by decide⟩⟩

theorem test_witness_PhaseTable :
    ∀ x ∈ [(Op.reset, Phase.rstHi), (.reset, .rstLo), (.reset, .rstRel), (.rstpres, .rstRel), (.readBit, .rdLo), (.writeByte, .wr1Lo),
      (.writeByte, .wr0Lo)],
      TickEdge (at_ x.1 x.2 1) ∧ (at_ x.1 x.2 1).timer = 1 ∧ (at_ x.1 x.2 1).ph = x.2 ∧ (at_ x.1 x.2 1).op = x.1 :=
  fun x hx => ⟨tickEdge_at _ _ ((by decide : ∀ x ∈ [(Op.reset, Phase.rstHi), (.reset, .rstLo), (.reset, .rstRel),
    (.rstpres, .rstRel), (.readBit, .rdLo), (.writeByte, .wr1Lo), (.writeByte, .wr0Lo)], x.1 ≠ Op.idle) x hx), rfl, rfl, rfl⟩

theorem test_witness_CompletionReleasesTheLine :
    ∃ s t : State, Invariant s ∧ s.port.rstN = true ∧ s.busy = true ∧ step s = .next t ∧ t.busy = false :=
  ⟨at_ .readBit .rdRec 1, _, by constructor <;> decide, rfl, rfl, rfl, rfl⟩

theorem test_witness_PadsFollowTheDriver : Invariant (State.resetOf tiny) ∧ (State.resetOf tiny).op = .idle := ⟨tiny_invariant, rfl⟩

/-- The two modes of every command: idle, and busy (the accept statements and the rejections of NOP, CRC_CLEAR and CRC_FEED). -/
theorem test_witness_accepts : (State.resetOf tiny).op = .idle ∧ (at_ .readByte .rdLo 1).op ≠ .idle := by decide

theorem test_witness_WriteByteIsAccepted :
    (∃ s : State, s.op = .idle ∧ s.txdata.getLsbD 0 = true) ∧ (∃ s : State, s.op = .idle ∧ s.txdata.getLsbD 0 = false) ∧
    ∃ (s t u : State) (v : Byte), s.params.legal = true ∧ s.op ≠ .idle ∧ HostWrites s .txdata v ∧ step s = .next t ∧
      step (withoutWrite s) = .next u :=
  ⟨⟨{ State.resetOf tiny with txdata := 0x01#8 }, rfl, rfl⟩, ⟨{ State.resetOf tiny with txdata := 0xFE#8 }, rfl, rfl⟩,
    { at_ .writeByte .wr0Lo 1 with host := [.write .txdata 0xFF#8] }, _, _, 0xFF#8, by decide, by decide, ⟨rfl, rfl, rfl, rfl⟩,
    step_eq _ (by decide), step_eq _ (by decide)⟩

theorem test_witness_CommandFrame :
    (∃ t, exec .nop (State.resetOf tiny) = .next t ∧ (State.resetOf tiny).busy = false) ∧
    ∃ t, exec .crcFeed (at_ .reset .rstHi 1) = .next t ∧ (at_ .reset .rstHi 1).busy = true :=
  ⟨⟨_, exec_next _ _, rfl⟩, ⟨_, exec_next _ _, rfl⟩⟩

theorem test_witness_BusyWriteIsDropped :
    (∃ (s t u r : State) (c : Byte), Invariant s ∧ s.busy = true ∧ HostWrites s .cmd c ∧ step s = .next t ∧
      step (withoutWrite s) = .next u ∧ commandWrite c s = .next r) ∧
    (∃ s t : State, s.ebusy = true ∧ s.port.rstN = true ∧ step s = .next t ∧ ∃ v, HostWrites s .err v ∧ v.getLsbD 0 = true) ∧
    ∃ s t : State, s.ebusy = true ∧ s.port.rstN = true ∧ step s = .next t ∧ ¬ ∃ v, HostWrites s .err v ∧ v.getLsbD 0 = true :=
  ⟨⟨{ at_ .reset .rstRel 1 with host := [.write .cmd 0xFF#8] }, _, _, _, 0xFF#8, by constructor <;> decide, rfl,
      ⟨rfl, rfl, rfl, rfl⟩, step_eq _ (by decide), step_eq _ (by decide), commandWrite_eq _ _⟩,
    ⟨{ idleWith (.write .err 0x01#8) with ebusy := true }, _, rfl, rfl, step_eq _ (by decide), 0x01#8, ⟨rfl, rfl, rfl, rfl⟩, rfl⟩,
    ⟨{ idleWith (.write .err 0xFE#8) with ebusy := true }, _, rfl, rfl, step_eq _ (by decide), fun ⟨_, ⟨_, _, _, h⟩, h'⟩ => by
      rw [← h] at h'; cases h'⟩⟩

theorem test_witness_ReservedByteIsDropped :
    (∀ c ∈ [0x09#8, 0x0F#8, 0x10#8, 0xFF#8], ∃ s t u : State, s.params.legal = true ∧ s.busy = false ∧ HostWrites s .cmd c ∧
      9 ≤ c.toNat ∧ step s = .next t ∧ step (withoutWrite s) = .next u) ∧
    (∃ s t : State, s.ersvd = true ∧ s.port.rstN = true ∧ step s = .next t ∧ ∃ v, HostWrites s .err v ∧ v.getLsbD 1 = true) ∧
    ∃ s t : State, s.ersvd = true ∧ s.port.rstN = true ∧ step s = .next t ∧ ¬ ∃ v, HostWrites s .err v ∧ v.getLsbD 1 = true :=
  ⟨fun c hc => ⟨idleWith (.write .cmd c), _, _, (by decide : tiny.legal = true), rfl, ⟨rfl, rfl, rfl, rfl⟩,
      (by decide : ∀ c ∈ [0x09#8, 0x0F#8, 0x10#8, 0xFF#8], 9 ≤ c.toNat) c hc, step_eq _ (by decide : tiny.legal = true),
      step_eq _ (by decide : tiny.legal = true)⟩,
    ⟨{ idleWith (.write .err 0x02#8) with ersvd := true }, _, rfl, rfl, step_eq _ (by decide), 0x02#8, ⟨rfl, rfl, rfl, rfl⟩, rfl⟩,
    ⟨{ idleWith (.write .err 0xFD#8) with ersvd := true }, _, rfl, rfl, step_eq _ (by decide), fun ⟨_, ⟨_, _, _, h⟩, h'⟩ => by
      rw [← h] at h'; cases h'⟩⟩

theorem test_witness_ErrorFlagsAreSticky : ∃ s t : State, s.port.rstN = true ∧ step s = .next t :=
  ⟨idleWith (.write .cmd 0x09#8), _, rfl, step_eq _ (by decide)⟩

theorem test_witness_ReadsHaveNoSideEffect : ∃ s t : State, s.port.re = true ∧ step s = .next t :=
  ⟨idleWith (.read .status), _, rfl, step_eq _ (by decide)⟩

theorem test_witness_ControlRegistersAreTheHosts :
    (∃ s t : State, s.port.rstN = true ∧ step s = .next t ∧ HostWrites s .ctrl 0x02#8 ∧ s.busy = true ∧
      ¬ ∃ v, HostWrites s .txdata v) ∧
    ∃ s t : State, s.port.rstN = true ∧ step s = .next t ∧ HostWrites s .txdata 0xFF#8 ∧ s.busy = true ∧ ¬ ∃ v, HostWrites s .ctrl v :=
  ⟨⟨{ at_ .readByte .rdLo 1 with host := [.write .ctrl 0x02#8] }, _, rfl, step_eq _ (by decide), ⟨rfl, rfl, rfl, rfl⟩, rfl,
      fun ⟨_, _, _, h, _⟩ => absurd h (by decide)⟩,
    ⟨{ at_ .readByte .rdLo 1 with host := [.write .txdata 0xFF#8] }, _, rfl, step_eq _ (by decide), ⟨rfl, rfl, rfl, rfl⟩, rfl,
      fun ⟨_, _, _, h, _⟩ => absurd h (by decide)⟩⟩

theorem test_witness_OneBusyEdgeIsTheSameForEveryAccess :
    ∃ (s t u : State) (c : PortCycle), s.params.legal = true ∧ s.busy = true ∧ s.port.rstN = true ∧ c.rstN = true ∧
      step s = .next t ∧ step (withPort c s) = .next u :=
  ⟨at_ .readByte .rdSmp 1, _, _, .command .reset, by decide, rfl, rfl, rfl, step_eq _ (by decide), step_eq _ (by decide)⟩

theorem test_witness_PresenceWaitPoll :
    (TickEdge (polling .prWait 1 false) ∧ (polling .prWait 1 false).ph = .prWait ∧ (polling .prWait 1 false).sample = false) ∧
    (TickEdge (polling .prWait 1 true) ∧ (polling .prWait 1 true).ph = .prWait ∧ (polling .prWait 1 true).sample = true ∧
      (polling .prWait 1 true).params.pWaitMax ≤ (polling .prWait 1 true).pcnt + 1) ∧
    (TickEdge (polling .prWait 0 true) ∧ (polling .prWait 0 true).ph = .prWait ∧ (polling .prWait 0 true).sample = true ∧
      (polling .prWait 0 true).pcnt + 1 < (polling .prWait 0 true).params.pWaitMax) := by
  unfold TickEdge; decide

theorem test_witness_PresenceLowPoll :
    (TickEdge (polling .prLow 1 true) ∧ (polling .prLow 1 true).ph = .prLow ∧ (polling .prLow 1 true).sample = true ∧
      (polling .prLow 1 true).pcnt < (polling .prLow 1 true).params.pLowMin) ∧
    (TickEdge (polling .prLow 2 true) ∧ (polling .prLow 2 true).ph = .prLow ∧ (polling .prLow 2 true).sample = true ∧
      (polling .prLow 2 true).params.pLowMin ≤ (polling .prLow 2 true).pcnt) ∧
    (TickEdge (polling .prLow 3 false) ∧ (polling .prLow 3 false).ph = .prLow ∧ (polling .prLow 3 false).sample = false ∧
      (polling .prLow 3 false).params.pLowMax < (polling .prLow 3 false).pcnt + 1) ∧
    (TickEdge (polling .prLow 2 false) ∧ (polling .prLow 2 false).ph = .prLow ∧ (polling .prLow 2 false).sample = false ∧
      (polling .prLow 2 false).pcnt + 1 ≤ (polling .prLow 2 false).params.pLowMax) := by
  unfold TickEdge; decide

theorem test_witness_PresenceEndsWithOneOutcome_end :
    ∃ s t : State, Invariant s ∧ s.port.rstN = true ∧ checksPresence s.op = true ∧ step s = .next t ∧ t.busy = false :=
  ⟨polling .prLow 2 true, _, by constructor <;> decide, rfl, rfl, step_eq _ (by decide), rfl⟩

theorem test_witness_PresenceEndsWithOneOutcome_change :
    (∃ s t : State, s.port.rstN = true ∧ step s = .next t ∧ t.present ≠ s.present) ∧
    ∃ s t : State, s.port.rstN = true ∧ step s = .next t ∧ t.pfail ≠ s.pfail :=
  ⟨⟨{ idleWith (.command .presence) with present := true }, _, rfl, step_eq _ (by decide), by decide⟩,
    ⟨polling .prWait 1 true, _, rfl, step_eq _ (by decide), by decide⟩⟩

theorem test_witness_PresenceOutcomeBySamples_noFall :
    ∃ s : State, Invariant s ∧ s.ph = .prWait ∧ s.pcnt = 0 ∧ s.preCnt = 0 ∧
      ResetFree ((s.params.pWaitMax + s.params.pLowMax) * s.params.clkPerTick) s ∧
      ∀ j, 1 ≤ j → j ≤ s.params.pWaitMax → SampleAt (j * s.params.clkPerTick - 1) s true :=
  ⟨checking [true, true] [], checking_invariant _ _ _, rfl, rfl, rfl, by unfold ResetFree; decide, fun j h1 h2 =>
    sampleAt_of (by decide) ((by decide : ∀ j < 3, 1 ≤ j → (cyclesAfter (j * 1 - 1) (checking [true, true] [])).sample = true) j
      (Nat.lt_succ_of_le h2) h1)⟩

/-- The hypotheses of a pulse of `l` low samples that starts at poll `f` and ends with a high sample. -/
def Pulse (s : State) (f l : Nat) : Prop :=
  (Invariant s ∧ s.ph = .prWait ∧ s.pcnt = 0 ∧ s.preCnt = 0 ∧
    ResetFree ((s.params.pWaitMax + s.params.pLowMax) * s.params.clkPerTick) s) ∧
  (1 ≤ f ∧ f ≤ s.params.pWaitMax ∧ ∀ j, 1 ≤ j → j < f → SampleAt (j * s.params.clkPerTick - 1) s true) ∧
  (1 ≤ l ∧ l ≤ s.params.pLowMax ∧ ∀ j, f ≤ j → j < f + l → SampleAt (j * s.params.clkPerTick - 1) s false) ∧
  SampleAt ((f + l) * s.params.clkPerTick - 1) s true

theorem pulse_of {a b : Bool} {line : List Bool} {f l : Nat} (h : 1 ≤ f ∧ f ≤ 2 ∧ 1 ≤ l ∧ l ≤ 3)
    (h1 : ∀ j < f, 1 ≤ j → (cyclesAfter (j * 1 - 1) (checking [a, b] line)).sample = true)
    (h2 : ∀ j < f + l, f ≤ j → (cyclesAfter (j * 1 - 1) (checking [a, b] line)).sample = false)
    (h3 : (cyclesAfter ((f + l) * 1 - 1) (checking [a, b] line)).sample = true) : Pulse (checking [a, b] line) f l := by
  have hl : (checking [a, b] line).params.legal = true := checking_legal
  exact ⟨⟨checking_invariant _ _ _, rfl, rfl, rfl, by intro c hc; cases hc⟩,
    ⟨h.1, h.2.1, fun j a b => sampleAt_of hl (h1 j b a)⟩, ⟨h.2.2.1, h.2.2.2, fun j a b => sampleAt_of hl (h2 j b a)⟩,
    sampleAt_of hl h3⟩

/-- A pulse from the first poll that is one sample too short, and one that is just long enough (P_LOW_MIN is 2). -/
theorem test_witness_PresenceOutcomeBySamples_short :
    (∃ s : State, Pulse s 1 1 ∧ 1 < s.params.pLowMin) ∧ ∃ s : State, Pulse s 1 2 ∧ s.params.pLowMin ≤ 2 :=
  ⟨⟨checking [true, false] [], pulse_of (by decide) (by decide) (by decide) (by decide), by decide⟩,
    ⟨checking [false, false] [true], pulse_of (by decide) (by decide) (by decide) (by decide), by decide⟩⟩

/-- A pulse from the last poll (P_WAIT_MAX is 2), one sample long and as long as accepted (P_LOW_MAX is 3). -/
theorem test_witness_PresenceOutcomeBySamples_last : (∃ s : State, Pulse s 2 1) ∧ ∃ s : State, Pulse s 2 3 :=
  ⟨⟨checking [false, true] [true], pulse_of (by decide) (by decide) (by decide) (by decide)⟩,
    ⟨checking [false, true] [false, false, true], pulse_of (by decide) (by decide) (by decide) (by decide)⟩⟩

theorem test_witness_PresenceOutcomeBySamples_long :
    ∃ s : State, (Invariant s ∧ s.ph = .prWait ∧ s.pcnt = 0 ∧ s.preCnt = 0 ∧
        ResetFree ((s.params.pWaitMax + s.params.pLowMax) * s.params.clkPerTick) s) ∧
      (∀ j, 1 ≤ j → j < 2 → SampleAt (j * s.params.clkPerTick - 1) s true) ∧
      ∀ j, 2 ≤ j → j ≤ 2 + s.params.pLowMax → SampleAt (j * s.params.clkPerTick - 1) s false :=
  ⟨checking [false, true] [false, false, false], ⟨checking_invariant _ _ _, rfl, rfl, rfl, by intro c hc; cases hc⟩,
    fun j h1 h2 => sampleAt_of (by decide) ((by decide : ∀ j < 2, 1 ≤ j →
      (cyclesAfter (j * 1 - 1) (checking [false, true] [false, false, false])).sample = true) j h2 h1),
    fun j h1 h2 => sampleAt_of (by decide) ((by decide : ∀ j < 6, 2 ≤ j →
      (cyclesAfter (j * 1 - 1) (checking [false, true] [false, false, false])).sample = false) j (Nat.lt_succ_of_le h2) h1)⟩

/-- The accept edge of every command, for the timelines. -/
theorem test_witness_timelines (i : Instr) : Accepted i (idleWith (.command i)) ∧ ∀ n, ResetFree n (idleWith (.command i)) := by
  refine ⟨⟨idleWith_invariant _, rfl, by cases i <;> rfl⟩, fun n c hc => ?_⟩
  have := List.mem_of_mem_take hc
  rw [List.mem_singleton.1 this]; rfl

/-- The slots' clauses of the timelines: the first and the last slot, at their first and last cycle. -/
theorem test_witness_timeline_slots :
    (∀ i ∈ [0, 7], i < 8 ∧ 1 ≤ 1 ∧ 1 ≤ tiny.tRslot * tiny.clkPerTick) ∧
    (∀ i ∈ [0, 7], ∀ d ∈ [0x00#8, 0xFF#8, 0xA5#8],
      i < 8 ∧ tiny.slotStart d i * tiny.clkPerTick < tiny.slotStart d (i + 1) * tiny.clkPerTick) ∧
    1 ≤ tiny.tRst * tiny.clkPerTick := by decide

theorem test_witness_ReadSampleIsTaken :
    (∃ s : State, s.ph = .rdSmp ∧ 1 < s.timer) ∧
    (TickEdge (at_ .readByte .rdSmp 1) ∧ (at_ .readByte .rdSmp 1).ph = .rdSmp ∧ (at_ .readByte .rdSmp 1).timer = 1 ∧
      (at_ .readByte .rdSmp 1).op = .readByte) ∧
    TickEdge (at_ .readBit .rdSmp 1) ∧ (at_ .readBit .rdSmp 1).ph = .rdSmp ∧ (at_ .readBit .rdSmp 1).timer = 1 ∧
      (at_ .readBit .rdSmp 1).op ≠ .readByte :=
  ⟨⟨at_ .readByte .rdSmp 2, by decide⟩, by unfold TickEdge; decide⟩

theorem test_witness_ReadSlotEnds :
    (TickEdge (at_ .readBit .rdRec 1) ∧ (at_ .readBit .rdRec 1).ph = .rdRec ∧ (at_ .readBit .rdRec 1).timer = 1 ∧
      (at_ .readBit .rdRec 1).op = .readBit) ∧
    ∀ n ∈ [0#3, 6#3], ∃ s : State, TickEdge s ∧ s.ph = .rdRec ∧ s.timer = 1 ∧ s.op = .readByte ∧ s.bitcnt = n ∧ s.bitcnt ≠ 7#3 :=
  ⟨by unfold TickEdge; decide, fun n hn => ⟨{ at_ .readByte .rdRec 1 with bitcnt := n }, tickEdge_at (op := .readByte) .rdRec 1 nofun, rfl, rfl, rfl,
    rfl, (by decide : ∀ n ∈ [0#3, 6#3], n ≠ 7#3) n hn⟩⟩

theorem test_witness_ReadByteDelivers :
    (∀ b : Bool, ∃ s : State, TickEdge s ∧ s.op = .readByte ∧ s.ph = .rdRec ∧ s.timer = 1 ∧ s.bitcnt = 7#3 ∧ s.crcrx = b) ∧
    ∃ s t : State, s.port.rstN = true ∧ s.op = .readByte ∧ step s = .next t ∧ t.op = .readByte :=
  ⟨fun b => ⟨{ at_ .readByte .rdRec 1 with bitcnt := 7#3, crcrx := b }, tickEdge_at (op := .readByte) .rdRec 1 nofun, rfl, rfl, rfl, rfl, rfl⟩,
    ⟨at_ .readByte .rdRec 2, _, rfl, rfl, step_eq _ (by decide), rfl⟩⟩

theorem test_witness_WriteSlotEnds :
    ∀ ph ∈ [Phase.wr1Rel, .wr0Rel], ∀ x ∈ [(7#3, 0x00#8), (6#3, 0x02#8), (0#3, 0xFD#8)],
      ∃ s : State, TickEdge s ∧ (s.ph = .wr1Rel ∨ s.ph = .wr0Rel) ∧ s.timer = 1 ∧ s.ph = ph ∧ s.bitcnt = x.1 ∧ s.shreg = x.2 ∧
        (s.bitcnt = 7#3 ∨ s.bitcnt ≠ 7#3 ∧ (s.shreg.getLsbD 1 = true ∨ s.shreg.getLsbD 1 = false)) :=
  fun ph hp x _ => ⟨{ at_ .writeByte ph 1 with bitcnt := x.1, shreg := x.2 }, tickEdge_at (op := .writeByte) ph 1 nofun,
    (by simpa using hp : ph = .wr1Rel ∨ ph = .wr0Rel), rfl, rfl, rfl, rfl, by cases x.2.getLsbD 1 <;> simp <;> exact Classical.em _⟩

theorem test_witness_ReceiveRegistersChangeOnlyByReads :
    (∃ s t : State, Invariant s ∧ s.port.rstN = true ∧ step s = .next t ∧ t.rxdata ≠ s.rxdata) ∧
    ∃ s t : State, Invariant s ∧ s.port.rstN = true ∧ step s = .next t ∧ t.rbit ≠ s.rbit :=
  ⟨⟨{ at_ .readByte .rdRec 1 with bitcnt := 7#3, shreg := 0xA5#8 }, _, by constructor <;> decide, rfl, step_eq _ (by decide), by decide⟩,
    ⟨at_ .readBit .rdSmp 1, _, by constructor <;> decide, rfl, step_eq _ (by decide), by decide⟩⟩

theorem test_witness_CrcChangesAtThreeKindsOfEdge :
    (∃ s t : State, Invariant s ∧ s.port.rstN = true ∧ step s = .next t ∧ t.crc ≠ s.crc ∧ HostWrites s .cmd 0x07#8) ∧
    (∃ s t : State, Invariant s ∧ s.port.rstN = true ∧ step s = .next t ∧ t.crc ≠ s.crc ∧ HostWrites s .cmd 0x08#8) ∧
    ∃ s t : State, Invariant s ∧ s.port.rstN = true ∧ step s = .next t ∧ t.crc ≠ s.crc ∧ s.op = .readByte :=
  ⟨⟨{ idleWith (.command .crcClear) with crc := 0x90#8 }, _, by constructor <;> decide, rfl, step_eq _ (by decide), by decide,
      ⟨rfl, rfl, rfl, rfl⟩⟩,
    ⟨{ idleWith (.command .crcFeed) with txdata := 0x01#8 }, _, by constructor <;> decide, rfl, step_eq _ (by decide), by decide,
      ⟨rfl, rfl, rfl, rfl⟩⟩,
    ⟨{ at_ .readByte .rdRec 1 with bitcnt := 7#3, shreg := 0xA5#8 }, _, by constructor <;> decide, rfl, step_eq _ (by decide), by decide,
      rfl⟩⟩

theorem test_witness_ResetMeetsTheInvariant : tiny.legal = true ∧ Params.ofReset.legal = true :=
  ⟨by decide, Params.nominal_legal (Nat.succ_pos _)⟩

theorem test_witness_StepKeepsTheInvariant : ∃ s t : State, Invariant s ∧ step s = .next t :=
  ⟨{ at_ .writeByte .wr0Rel 1 with host := [.command .nop] }, _, by constructor <;> decide, step_eq _ (by decide)⟩

theorem test_witness_LineIsReadOnlyAtSampleEdges :
    ∃ (s t u : State) (y : List Bool),
      ¬ (s.busy = true ∧ s.tick = true ∧ (s.ph = .prWait ∨ s.ph = .prLow ∨ (s.ph = .rdSmp ∧ s.timer ≤ 1))) ∧
      step s = .next t ∧ step { s with sync := y } = .next u ∧ s.busy = true ∧ s.ph = .rdSmp ∧ s.timer = 2 :=
  ⟨at_ .readBit .rdSmp 2, _, _, [false, false], by decide, step_eq _ (by decide), step_eq _ (by decide), rfl, rfl, rfl⟩

theorem test_witness_TimedPhaseLastsItsDuration :
    ∃ s : State, Invariant s ∧ timed s.ph = true ∧ s.timer = dur s.params s.ph ∧ s.preCnt = 0 ∧
      ResetFree (dur s.params s.ph * s.params.clkPerTick) s :=
  ⟨{ at_ .reset .rstLo 5 with preCnt := 0 }, by constructor <;> decide, rfl, rfl, rfl, by intro c hc; cases hc⟩

/-- Three cycles into a RESET of two cycles a tick: every cycle so far is busy, and the last of them is a tick edge. -/
theorem test_witness_TickGridStartsAtAccept :
    ∃ s t : State, Invariant s ∧ s.preCnt = 0 ∧ ResetFree 3 s ∧ (∀ m u, m ≤ 3 → Runs m s u → u.busy = true) ∧ Runs 3 s t ∧
      s.params.clkPerTick ∣ 3 + 1 := by
  let s : State := { at_ .reset .rstLo 5 with preCnt := 0 }
  have hl : s.params.legal = true := by decide
  have hi : Invariant s := by constructor <;> decide
  refine ⟨s, _, hi, rfl, (fun c hc => by cases hc), fun m u hm hu => ?_, runs_cyclesAfter hl 3, by decide⟩
  rw [(runs_iff hl m u).1 hu]
  exact (by decide : ∀ m < 4, (cyclesAfter m s).busy = true) m (Nat.lt_succ_of_le hm)

theorem test_witness_EveryCommandCompletes :
    ∃ s : State, Invariant s ∧ s.busy = true ∧ ResetFree (s.params.commandBound * s.params.clkPerTick) s :=
  ⟨at_ .rstpres .rstHi 1, by constructor <;> decide, rfl, by intro c hc; cases hc⟩

end Sys2Proof.Tests
end

section
/-! SUPPORT. The scope family: 00_scope.md. -/

namespace Sys2Proof

/-- `Params.legal_iff` with the two bounds of 00_scope.md R7 items 2 and 4 on each duration put together as one range. -/
theorem Params.legal_iff_durations_in_range (p : Params) :
    p.legal = true ↔
      (1 ≤ p.clkPerTick ∧ 1 ≤ p.syncStages) ∧
      ((∀ t ∈ p.durations, 1 ≤ t ∧ t ≤ p.cntMax) ∧ 1 ≤ p.pWaitMax ∧ 1 ≤ p.pLowMin) ∧
      p.pLowMin ≤ p.pLowMax ∧ (p.pWaitMax ≤ p.cntMax ∧ p.pLowMax + 1 ≤ p.cntMax) ∧
      p.tW1l < p.tW0l ∧
      (p.tW0l + p.tW0r < p.tRstL ∧ p.tW1l + p.tW1r < p.tRstL ∧ p.tRl + p.tRs + p.tRrec < p.tRstL) := by
  rw [Params.legal_iff, forall₂_and]
  constructor
  · rintro ⟨hclk, ⟨hpos, hpres⟩, hord, ⟨hfit, hcnt⟩, hshort, hdom⟩
    exact ⟨hclk, ⟨⟨hpos, hfit⟩, hpres⟩, hord, hcnt, hshort, hdom⟩
  · rintro ⟨hclk, ⟨⟨hpos, hfit⟩, hpres⟩, hord, hcnt, hshort, hdom⟩
    exact ⟨hclk, ⟨hpos, hpres⟩, hord, ⟨hfit, hcnt⟩, hshort, hdom⟩

namespace Machine

/-- Settles O6: a step is refused exactly when `Params.legal` is false, and `Params.legal` is the six constraints of R7. -/
theorem illegalParametersAreRefused : Obligations.IllegalParametersAreRefused := by
  unfold Obligations.IllegalParametersAreRefused
  refine ⟨fun s => ?_, fun _ hk => Params.nominal_legal hk⟩
  rw [step_refused, ← Bool.not_eq_true]
  exact not_congr (Params.legal_iff_durations_in_range s.params)

end Machine

end Sys2Proof
end

section
/-! SUPPORT. The state family: the input synchronizer, the ERR flags and the pads of 10_state.md. -/

namespace Sys2Proof.Machine

/-! ## The input synchronizer -/

@[simp] theorem cycleAfter_sync {s : State} (h : s.port.rstN = true) : (cycleAfter s).sync = s.dqI :: s.sync.dropLast := by
  rw [cycleAfter_edge s h, finishEdge_sync]

theorem Invariant.sync_ne_nil {s : State} (h : Invariant s) : s.sync ≠ [] :=
  List.ne_nil_of_length_pos (h.stages ▸ Params.legal_stages h.legal)

/-- A shift that takes `a` in at the front and drops the last stage: each later stage is the one before it. -/
theorem getD_cons_dropLast {α : Type} (a d : α) (l : List α) {k : Nat} (h1 : 1 ≤ k) (h2 : k < l.length) :
    (a :: l.dropLast).getD k d = l.getD (k - 1) d := by
  obtain ⟨j, rfl⟩ := Nat.exists_eq_add_of_le' h1
  rw [List.getD_cons_succ, Nat.add_sub_cancel, List.getD_eq_getElem?_getD, List.getD_eq_getElem?_getD, List.getElem?_dropLast,
    if_pos (by omega)]

/-- Settles O10: the edge's synchronizer is `dq_i` in front of all stages but the last, stage by stage. -/
theorem synchronizerShifts : Obligations.SynchronizerShifts := by
  unfold Obligations.SynchronizerShifts
  refine ⟨fun s hs hr => ?_, fun _ _ => rfl⟩
  rw [← hs.stages]
  refine ⟨sample_eq s hs.sync_ne_nil, cycleAfter s, step_eq s hs.legal, ?_⟩
  rw [cycleAfter_sync hr]
  refine ⟨?_, fun _ => rfl, fun k d h1 h2 => getD_cons_dropLast _ d _ h1 h2⟩
  rw [List.length_cons, List.length_dropLast, Nat.sub_add_cancel (List.length_pos_iff.2 hs.sync_ne_nil)]

/-! ## The ERR flags -/

theorem not_hostWrites_of_we {s : State} (h : s.port.we = false) (r : Reg) (v : Byte) : ¬ HostWrites s r v := by
  rintro ⟨-, hwe, -⟩
  rw [h] at hwe
  cases hwe

/-- At an edge that writes `v` to `r`, a claim about some written byte of a register is one about `r` and `v`. -/
theorem HostWrites.exists_and_iff {s : State} {r : Reg} {v : Byte} (h : HostWrites s r v) (r' : Reg) (P : Byte → Prop) :
    (∃ c, HostWrites s r' c ∧ P c) ↔ r = r' ∧ P v := by
  constructor
  · rintro ⟨c, hc, hP⟩
    obtain ⟨rfl, rfl⟩ := h.unique hc
    exact ⟨rfl, hP⟩
  · rintro ⟨rfl, hP⟩
    exact ⟨v, h, hP⟩

theorem writeAfter_ebusy_iff (r : Reg) (v : Byte) (s : State) :
    (writeAfter r v s).ebusy = true ↔
      (r = .cmd ∧ s.busy = true) ∨ (s.ebusy = true ∧ ¬ (r = .err ∧ v.getLsbD 0 = true)) := by
  obtain ⟨-, -, -, hcmd, -⟩ := commandAfter_side v s
  cases r
  case cmd => simp [writeAfter, hcmd, or_comm]
  all_goals simp [writeAfter]

theorem writeAfter_ersvd_iff (r : Reg) (v : Byte) (s : State) :
    (writeAfter r v s).ersvd = true ↔
      (r = .cmd ∧ s.busy = false ∧ 9 ≤ v.toNat) ∨ (s.ersvd = true ∧ ¬ (r = .err ∧ v.getLsbD 1 = true)) := by
  obtain ⟨-, -, -, -, hcmd⟩ := commandAfter_side v s
  cases r
  case cmd => simp [writeAfter, hcmd, decode_reserved, or_comm]
  all_goals simp [writeAfter]

/-- What sets and clears EBUSY at an edge (10_state.md R32). -/
theorem hostAfter_ebusy_iff {s : State} (h : s.port.rstN = true) :
    (hostAfter s).ebusy = true ↔
      (∃ c, HostWrites s .cmd c ∧ s.busy = true) ∨ (s.ebusy = true ∧ ¬ ∃ v, HostWrites s .err v ∧ v.getLsbD 0 = true) := by
  rcases hostWrites_cases s h with ⟨r, v, hw⟩ | ⟨hwe, heq⟩
  · rw [hostAfter_of_writes hw, writeAfter_ebusy_iff, hw.exists_and_iff, hw.exists_and_iff .err fun v => v.getLsbD 0 = true]
  · simp [heq, not_hostWrites_of_we hwe]

/-- What sets and clears ERSVD at an edge (10_state.md R32). -/
theorem hostAfter_ersvd_iff {s : State} (h : s.port.rstN = true) :
    (hostAfter s).ersvd = true ↔
      (∃ c, HostWrites s .cmd c ∧ s.busy = false ∧ 9 ≤ c.toNat) ∨
        (s.ersvd = true ∧ ¬ ∃ v, HostWrites s .err v ∧ v.getLsbD 1 = true) := by
  rcases hostWrites_cases s h with ⟨r, v, hw⟩ | ⟨hwe, heq⟩
  · rw [hostAfter_of_writes hw, writeAfter_ersvd_iff, hw.exists_and_iff, hw.exists_and_iff .err fun v => v.getLsbD 1 = true]
  · simp [heq, not_hostWrites_of_we hwe]

/-- Settles O28: an edge's ERR flags are those the host's access leaves, and only its writes of CMD and ERR touch them. -/
theorem errorFlagsAreSticky : Obligations.ErrorFlagsAreSticky := by
  unfold Obligations.ErrorFlagsAreSticky
  refine ⟨fun _ => rfl, fun _ => ⟨rfl, rfl⟩, fun s t hr hstep => ?_⟩
  obtain ⟨-, rfl⟩ := (step_next_iff s t).1 hstep
  obtain ⟨-, -, -, hebusy, hersvd⟩ := cycleAfter_hostSide hr
  rw [hebusy, hersvd]
  exact ⟨hostAfter_ebusy_iff hr, hostAfter_ersvd_iff hr⟩

/-! ## The pads -/

theorem drvOf_eq_hi_iff (ph : Phase) : drvOf ph = .hi ↔ ph = .rstHi := by cases ph <;> decide

theorem Invariant.ph_of_idle {s : State} (h : Invariant s) (hidle : s.op = .idle) : s.ph = .none := by
  have hph := h.phase
  rw [hidle] at hph
  exact eq_of_beq hph

/-- Settles O15: the pads are read off `drvOf`, whose one HI row is RST_HI, and an idle engine is in NONE. -/
theorem padsFollowTheDriver : Obligations.PadsFollowTheDriver := by
  unfold Obligations.PadsFollowTheDriver
  refine fun s => ⟨rfl, rfl, rfl, drvOf_eq_hi_iff s.ph, fun hs hidle => ?_⟩
  rw [State.dqOe, State.drv, hs.ph_of_idle hidle]
  rfl

end Sys2Proof.Machine
end

section
/-! SUPPORT. The memory family: what the host reads and writes at each address of 20_memory.md. -/

namespace Sys2Proof.Machine

/-! ## The fields of the readable bytes (20_memory.md R62)

A bit or a field of a byte is found by its offset in the concatenation. The offsets are resolved before `simp` runs: it would turn
`getLsbD` into an indexed read, which the concatenation lemmas do not match. -/

theorem status_flag_bits (s : State) :
    s.status.getLsbD 0 = s.busy ∧ s.status.getLsbD 1 = s.done ∧ s.status.getLsbD 2 = s.present ∧
    s.status.getLsbD 5 = s.rbit ∧ s.status.getLsbD 6 = s.crcz ∧ s.status.getLsbD 7 = s.errs := by
  unfold State.status
  simp only [BitVec.getLsbD_append, BitVec.getLsbD_ofBool]
  simp

/-- PFAIL stands above BUSY, DONE and PRESENT. -/
theorem status_pfail_bits (s : State) : s.status.extractLsb' 3 2 = pfailBits s.pfail := by
  unfold State.status
  rw [BitVec.extractLsb'_append_eq_of_le (by decide), BitVec.extractLsb'_append_eq_of_le (by decide),
    BitVec.extractLsb'_append_eq_of_le (by decide)]
  exact BitVec.extractLsb'_append_eq_right

theorem ctrl_bits (s : State) :
    s.ctrl.getLsbD 0 = s.puen ∧ s.ctrl.getLsbD 1 = s.crcrx ∧ s.ctrl.getLsbD 7 = s.sample := by
  unfold State.ctrl
  simp only [BitVec.getLsbD_append, BitVec.getLsbD_ofBool]
  simp

theorem ctrl_reserved_bits (s : State) : s.ctrl.extractLsb' 2 5 = 0#5 := by
  unfold State.ctrl
  rw [BitVec.extractLsb'_append_eq_of_le (by decide), BitVec.extractLsb'_append_eq_of_le (by decide)]
  exact BitVec.extractLsb'_append_eq_right

theorem err_bits (s : State) : s.err.getLsbD 0 = s.ebusy ∧ s.err.getLsbD 1 = s.ersvd := by
  unfold State.err
  simp only [BitVec.getLsbD_append, BitVec.getLsbD_ofBool]
  simp

theorem err_reserved_bits (s : State) : s.err.extractLsb' 2 6 = 0#6 := by
  unfold State.err
  rw [BitVec.extractLsb'_append_eq_of_le (by decide)]
  exact BitVec.extractLsb'_append_eq_left

/-- Settles O29: each address reads its register's byte, whose fields stand at the offsets of R62. -/
theorem hostReadValues : Obligations.HostReadValues := by
  unfold Obligations.HostReadValues
  refine ⟨⟨rfl, rfl, rfl, rfl⟩, fun s => ?_⟩
  obtain ⟨hbusy, hdone, hpresent, hrbit, hcrcz, herrs⟩ := status_flag_bits s
  obtain ⟨hpuen, hcrcrx, hline⟩ := ctrl_bits s
  obtain ⟨hebusy, hersvd⟩ := err_bits s
  exact ⟨rfl, ⟨hbusy, hdone, hpresent, status_pfail_bits s, hrbit, hcrcz, herrs⟩,
    ⟨hpuen, hcrcrx, ctrl_reserved_bits s, hline⟩, rfl, rfl, rfl, ⟨hebusy, hersvd, err_reserved_bits s⟩, rfl⟩

/-! ## The host's writes (20_memory.md R63) -/

theorem writeErr_eq (v : Byte) (s : State) :
    writeErr v s = { s with
      ebusy := if v.getLsbD 0 = true then false else s.ebusy, ersvd := if v.getLsbD 1 = true then false else s.ersvd } := by
  have clear : ∀ flag bit : Bool, (flag && !bit) = if bit = true then false else flag := by decide
  unfold writeErr
  rw [clear, clear]

/-- Settles O30: each address is its register's own write, and ERR's mask is R63's write-1-to-clear. -/
theorem hostWriteEffects : Obligations.HostWriteEffects := by
  unfold Obligations.HostWriteEffects
  exact fun s v => ⟨rfl, rfl, rfl, rfl, rfl, rfl, congrArg _ (writeErr_eq v s), rfl⟩

end Sys2Proof.Machine
end

section
/-! SUPPORT. The encoding family: the decoder on every byte (30_encoding.md). -/

namespace Sys2Proof.Machine

/-- The upper nibble is zero exactly below 0x10 (30_encoding.md R81). -/
theorem rsvField_eq_zero_iff (c : Byte) : rsvField c = 0#4 ↔ c.toNat < 16 := by
  rw [rsvField, ← BitVec.toNat_inj, BitVec.extractLsb'_toNat, Nat.shiftRight_eq_div_pow, BitVec.toNat_ofNat]
  omega

theorem decode_eq_reservedNibble_iff (c : Byte) : decode c = .reservedNibble ↔ 16 ≤ c.toNat := by
  rw [← Nat.not_lt, ← rsvField_eq_zero_iff]
  unfold decode
  split
  case isTrue h => exact ⟨fun _ => h, fun _ => rfl⟩
  case isFalse h => exact ⟨fun hd => (by split at hd <;> cases hd), fun hn => absurd hn h⟩

/-- Of the bytes that are no command, those below 0x10 are reserved by the opcode and the others by the upper nibble. -/
theorem decode_of_nine_le {c : Byte} (h : 9 ≤ c.toNat) :
    decode c = if c.toNat < 16 then .reservedOpcode else .reservedNibble := by
  have hnone : decodedInstr (decode c) = none := (decode_reserved c).2 h
  have hnibble := decode_eq_reservedNibble_iff c
  cases hd : decode c with
  | command i => rw [hd] at hnone; cases hnone
  | reservedNibble => rw [if_neg (Nat.not_lt.2 (hnibble.1 hd))]
  | reservedOpcode =>
    have hlt : c.toNat < 16 := Nat.not_le.1 fun hle => by rw [hnibble.2 hle] at hd; cases hd
    rw [if_pos hlt]

/-- Settles O1: the words of the opcode map are the commands' encodings, and the upper nibble splits the reserved bytes at 0x10. -/
theorem decoderFollowsTheOpcodeMap : Obligations.DecoderFollowsTheOpcodeMap :=
  ⟨decode_encode .nop, decode_encode .reset, decode_encode .presence, decode_encode .rstpres, decode_encode .readBit,
    decode_encode .readByte, decode_encode .writeByte, decode_encode .crcClear, decode_encode .crcFeed,
    fun _ => decode_of_nine_le⟩

end Sys2Proof.Machine
end

section
/-! SUPPORT. The engine timing family: one clock edge, the tick of a phase, and NOP (40_engine_timing.md). -/

namespace Sys2Proof.Machine

/-! ## The clock edge (R100, R102) -/

theorem hostWrite_eq_hostAfter {s : State} (h : s.port.we = true) :
    hostWrite s.port.addr s.port.wdata s = .next (hostAfter s) := by
  rw [← hostAccess_eq, hostAccess, if_pos h]

theorem hostAfter_of_no_write {s : State} (h : s.port.we = false) : hostAfter s = s := by
  simp [hostAfter, h]

/-- TickStep writes the engine's registers at a tick edge of a running command; at every other edge the host's access does. -/
theorem cycleAfter_engine {s : State} (h : s.port.rstN = true) :
    (cycleAfter s).engine =
      if s.op ≠ .idle ∧ s.preCnt = s.params.clkPerTick - 1 then (tickStep s.sample s).engine else (hostAfter s).engine := by
  rw [cycleAfter_edge s h, finishEdge_engine]
  simp only [Bool.and_eq_true, busy_iff, tick_iff]

/-- An accepted command restarts the prescaler (R102). -/
theorem cycleAfter_preCnt_of_accepts {s : State} (h : s.port.rstN = true) (ha : accepts s = true) : (cycleAfter s).preCnt = 0 := by
  rw [cycleAfter_edge s h, finishEdge_preCnt, if_pos ha, hostAfter_accepts s ha]

/-- At an edge that accepts no command the prescaler counts modulo CLK_PER_TICK (R102). -/
theorem cycleAfter_preCnt_of_not_accepts {s : State} (h : s.port.rstN = true) (ha : ¬ accepts s = true) :
    (cycleAfter s).preCnt = if s.preCnt = s.params.clkPerTick - 1 then 0 else s.preCnt + 1 := by
  rw [cycleAfter_edge s h, finishEdge_preCnt, if_neg ha]
  simp only [tick_iff]

/-- Settles O9: `t` is what the host's access makes of the state, and `cycleAfter` composes the edge from it. -/
theorem clockEdgeComposition : Obligations.ClockEdgeComposition := by
  unfold Obligations.ClockEdgeComposition
  intro s hl hr
  simp only [← accepts_iff]
  obtain ⟨hpuen, hcrcrx, htxdata, hebusy, hersvd⟩ := cycleAfter_hostSide hr
  exact ⟨hostAfter s, cycleAfter s, hostWrite_eq_hostAfter, hostAfter_of_no_write, step_eq s hl, cycleAfter_sync hr,
    cycleAfter_engine hr, cycleAfter_preCnt_of_accepts hr, cycleAfter_preCnt_of_not_accepts hr,
    hpuen, hcrcrx, htxdata, hebusy, hersvd, cycleAfter_params s⟩

/-! ## The tick of a phase (R104) -/

theorem timedTick_of_lt (b : Bool) {s : State} (h : 1 < s.timer) : timedTick b s = { s with timer := s.timer - 1 } := if_pos h

theorem timedTick_of_not_lt (b : Bool) {s : State} (h : ¬ 1 < s.timer) : timedTick b s = endPhase b s := if_neg h

/-- Settles O12: a tick edge's engine is TickStep's, which polls in PR_WAIT and PR_LOW and is `timedTick` in every other phase. -/
theorem tickStepCountsOrEndsThePhase : Obligations.TickStepCountsOrEndsThePhase := by
  unfold Obligations.TickStepCountsOrEndsThePhase
  intro s hs
  obtain ⟨t, hstep, hengine⟩ := edge_tick s hs
  refine ⟨t, hstep, fun hwait => ?_, fun hlow => ?_, fun hwait hlow hlt => ?_, fun hwait hlow hlt => ?_⟩
  · rw [hengine, tickStep_prWait _ s hwait]
  · rw [hengine, tickStep_prLow _ s hlow]
  · rw [hengine, tickStep_timed _ s hwait hlow, timedTick_of_lt _ hlt]; rfl
  · rw [hengine, tickStep_timed _ s hwait hlow, timedTick_of_not_lt _ hlt]

/-! ## NOP (R111) -/

/-- From reset a NOP leaves CRCZ and DONE as the bits set in STATUS: ERRS, CRCZ, RBIT, PFAIL, PRESENT, DONE, BUSY in this order. -/
theorem status_nopAccept_resetOf (p : Params) : (nopAccept (accept (State.resetOf p))).status = 0x42#8 := by
  change 0b0#1 ++ 0b1#1 ++ 0b0#1 ++ 0b00#2 ++ 0b0#1 ++ 0b1#1 ++ 0b0#1 = 0x42#8
  decide

/-- Settles O16: an idle engine accepts and then sets DONE, a busy one drops the byte, and after reset that DONE joins CRCZ. -/
theorem nopSetsDone : Obligations.NopSetsDone := by
  unfold Obligations.NopSetsDone
  exact ⟨rfl, exec_idle .nop, exec_busy .nop, fun p => ⟨_, exec_idle .nop (State.resetOf p) rfl, status_nopAccept_resetOf p⟩⟩

end Sys2Proof.Machine
end

section
/-! SUPPORT. The presence family: the polls of PR_WAIT and PR_LOW (41_reset_presence.md). -/

namespace Sys2Proof.Machine

theorem complete_engine (s : State) : (complete s).engine = s.engine.completed := rfl

/-! ## The wait for the falling edge (R133) -/

theorem presenceWaitTick_low (s : State) : presenceWaitTick false s = { s with ph := .prLow, pcnt := 1 } := rfl

theorem presenceWaitTick_high_last {s : State} (h : s.params.pWaitMax ≤ s.pcnt + 1) :
    presenceWaitTick true s = complete { s with pfail := .nofall } := if_pos h

theorem presenceWaitTick_high_early {s : State} (h : s.pcnt + 1 < s.params.pWaitMax) :
    presenceWaitTick true s = { s with pcnt := s.pcnt + 1 } := if_neg (Nat.not_le.2 h)

/-- Settles O34: the edge's engine is that of `presenceWaitTick`, case by case of the sample and the poll's number. -/
theorem presenceWaitPoll : Obligations.PresenceWaitPoll := by
  unfold Obligations.PresenceWaitPoll
  intro s hs hwait
  obtain ⟨t, hstep, hengine⟩ := edge_tick s hs
  rw [tickStep_prWait _ s hwait] at hengine
  refine ⟨t, hstep, fun hlow => ?_, fun hhigh hlast => ?_, fun hhigh hearly => ?_⟩
  · rw [hengine, hlow, presenceWaitTick_low]; rfl
  · rw [hhigh, presenceWaitTick_high_last hlast, complete_engine] at hengine
    exact ⟨hengine, congrArg (fun e => pfailBits e.pfail) hengine⟩
  · rw [hengine, hhigh, presenceWaitTick_high_early hearly]; rfl

/-! ## The measurement of the low pulse (R134) -/

theorem presenceLowTick_high_short {s : State} (h : s.pcnt < s.params.pLowMin) :
    presenceLowTick true s = complete { s with pfail := .short } := if_pos h

theorem presenceLowTick_high_present {s : State} (h : s.params.pLowMin ≤ s.pcnt) :
    presenceLowTick true s = complete { s with present := true } := if_neg (Nat.not_lt.2 h)

theorem presenceLowTick_low_long {s : State} (h : s.params.pLowMax < s.pcnt + 1) :
    presenceLowTick false s = complete { s with pfail := .long } := if_pos h

theorem presenceLowTick_low_counted {s : State} (h : s.pcnt + 1 ≤ s.params.pLowMax) :
    presenceLowTick false s = { s with pcnt := s.pcnt + 1 } := if_neg (Nat.not_lt.2 h)

/-- Settles O35: the edge's engine is that of `presenceLowTick`, case by case of the sample and the length of the pulse so far. -/
theorem presenceLowPoll : Obligations.PresenceLowPoll := by
  unfold Obligations.PresenceLowPoll
  intro s hs hph
  obtain ⟨t, hstep, hengine⟩ := edge_tick s hs
  rw [tickStep_prLow _ s hph] at hengine
  refine ⟨t, hstep, fun hhigh hshort => ?_, fun hhigh hpresent => ?_, fun hlow hlong => ?_, fun hlow hcounted => ?_⟩
  · rw [hhigh, presenceLowTick_high_short hshort, complete_engine] at hengine
    exact ⟨hengine, congrArg (fun e => pfailBits e.pfail) hengine⟩
  · rw [hengine, hhigh, presenceLowTick_high_present hpresent]; rfl
  · rw [hlow, presenceLowTick_low_long hlong, complete_engine] at hengine
    exact ⟨hengine, congrArg (fun e => pfailBits e.pfail) hengine⟩
  · rw [hengine, hlow, presenceLowTick_low_counted hcounted]; rfl

end Sys2Proof.Machine
end

section
/-! SUPPORT. The bit and byte family: the read sample, the ends of the slots, and the accept of WRITE_BYTE (42_bit_byte.md). -/

namespace Sys2Proof.Machine

/-! ## The end of a timed phase -/

/-- At the tick edge that ends a timed phase the engine is that of the phase's end action (R104, R106). -/
theorem edge_endPhase {s : State} (hs : TickEdge s) (ht : timed s.ph = true) (hlast : s.timer ≤ 1) :
    ∃ t, step s = .next t ∧ t.engine = (endPhase s.sample s).engine := by
  rw [← tickStep_end s.sample s ht hlast]
  exact edge_tick s hs

theorem endPhase_rdSmp (b : Bool) {s : State} (h : s.ph = .rdSmp) : endPhase b s = readSample b s := by
  rw [endPhase, h]

theorem endPhase_rdRec (b : Bool) {s : State} (h : s.ph = .rdRec) : endPhase b s = readSlotEnd s := by
  rw [endPhase, h]

theorem endPhase_writeRelease (b : Bool) {s : State} (h : s.ph = .wr1Rel ∨ s.ph = .wr0Rel) : endPhase b s = writeSlotEnd s := by
  rcases h with h | h <;> rw [endPhase, h]

/-! ## The read sample (R151) -/

/-- RD_SMP is the one timed phase whose end action reads the sample. -/
theorem endPhase_sample_irrelevant (b b' : Bool) {s : State} (h : s.ph ≠ .rdSmp) : endPhase b s = endPhase b' s := by
  unfold endPhase
  cases hph : s.ph
  case rdSmp => exact absurd hph h
  all_goals rfl

/-- Outside a presence poll a tick reads the sample at most to end RD_SMP. -/
theorem tickStep_sample_irrelevant (b b' : Bool) {s : State} (hwait : s.ph ≠ .prWait) (hlow : s.ph ≠ .prLow)
    (h : s.ph = .rdSmp → 1 < s.timer) : tickStep b s = tickStep b' s := by
  rw [tickStep_timed _ s hwait hlow, tickStep_timed _ s hwait hlow]
  by_cases hlt : 1 < s.timer
  · rw [timedTick_of_lt _ hlt, timedTick_of_lt _ hlt]
  · rw [timedTick_of_not_lt _ hlt, timedTick_of_not_lt _ hlt]
    exact endPhase_sample_irrelevant b b' (mt h hlt)

theorem shiftIn_getLsbD (b : Bool) (v : Byte) (i : Nat) :
    (shiftIn b v).getLsbD i = if i < 7 then v.getLsbD (i + 1) else (BitVec.ofBool b).getLsbD (i - 7) := by
  refine BitVec.getLsbD_append.trans ?_
  by_cases h : i < 7 <;> simp [h, Nat.add_comm]

theorem shiftIn_getLsbD_seven (b : Bool) (v : Byte) : (shiftIn b v).getLsbD 7 = b := by
  rw [shiftIn_getLsbD]; simp

theorem shiftIn_getLsbD_of_lt (b : Bool) (v : Byte) {i : Nat} (h : i < 7) : (shiftIn b v).getLsbD i = v.getLsbD (i + 1) := by
  rw [shiftIn_getLsbD, if_pos h]

/-- The engine after `ReadSample`, but for the shift register. -/
theorem readSample_engine (b : Bool) (s : State) :
    (readSample b s).engine =
      { s.engine with rbit := b, shreg := (readSample b s).shreg, ph := .rdRec, timer := s.params.tRrec } := rfl

theorem readSample_shreg (b : Bool) (s : State) :
    (readSample b s).shreg = if s.op = .readByte then shiftIn b s.shreg else s.shreg := rfl

/-- Settles O40: the end of RD_SMP is `readSample`, whose shift takes the sample in at bit 7, and no other tick of a slot reads it. -/
theorem readSampleIsTaken : Obligations.ReadSampleIsTaken := by
  unfold Obligations.ReadSampleIsTaken
  refine ⟨fun s hslot => ?_, fun s hs hph hlast => ?_⟩
  · rcases hslot with hph | ⟨hph, hlt⟩ | hph
    · exact tickStep_sample_irrelevant _ _ (by simp [hph]) (by simp [hph]) (by simp [hph])
    · exact tickStep_sample_irrelevant _ _ (by simp [hph]) (by simp [hph]) fun _ => hlt
    · exact tickStep_sample_irrelevant _ _ (by simp [hph]) (by simp [hph]) (by simp [hph])
  · obtain ⟨t, hstep, hengine⟩ := edge_endPhase hs (by rw [hph]; rfl) hlast.le
    rw [endPhase_rdSmp _ hph] at hengine
    have hshreg : t.shreg = (readSample s.sample s).shreg := congrArg Engine.shreg hengine
    refine ⟨t, hstep, ?_, fun hbyte => ?_, fun hbit => ?_⟩
    · rw [hshreg, hengine, readSample_engine]
    · rw [hshreg, readSample_shreg, if_pos hbyte]
      exact ⟨shiftIn_getLsbD_seven _ _, fun i hi => shiftIn_getLsbD_of_lt _ _ hi⟩
    · rw [hshreg, readSample_shreg, if_neg hbit]

/-! ## The completion of READ_BYTE (R155) -/

theorem readSlotEnd_last {s : State} (hop : s.op = .readByte) (hbit : s.bitcnt = 7#3) : readSlotEnd s = readByteDone s := by
  rw [readSlotEnd, if_neg (by simp [hop]), if_pos hbit]

theorem readByteDone_engine (s : State) :
    (readByteDone s).engine = { s.engine.completed with
      rxdata := s.shreg, crc := if s.crcrx = true then crc8Byte s.crc s.shreg else s.crc } := rfl

/-- While a command runs on, a tick writes neither RXDATA nor CRC. -/
theorem tickStep_keeps_rxdata_crc {b : Bool} {s : State} (h : (tickStep b s).op ≠ .idle) :
    (tickStep b s).rxdata = s.rxdata ∧ (tickStep b s).crc = s.crc := by
  obtain ⟨-, -, hkept | ⟨-, -, hidle, -⟩, -⟩ := tick_results b s
  · exact hkept
  · exact absurd hidle h

/-- A running command that runs on after an edge has written neither RXDATA nor CRC at it. -/
theorem cycleAfter_keeps_rxdata_crc {s : State} (hr : s.port.rstN = true) (hb : s.busy = true) (h : (cycleAfter s).op ≠ .idle) :
    (cycleAfter s).rxdata = s.rxdata ∧ (cycleAfter s).crc = s.crc := by
  change (cycleAfter s).engine.op ≠ .idle at h
  change (cycleAfter s).engine.rxdata = s.rxdata ∧ (cycleAfter s).engine.crc = s.crc
  rw [cycle_engine hr hb] at h ⊢
  by_cases htick : s.tick = true
  · rw [if_pos htick] at h ⊢
    exact tickStep_keeps_rxdata_crc h
  · rw [if_neg htick]
    exact ⟨rfl, rfl⟩

/-- Settles O42: the eighth slot ends in `readByteDone`, and only a tick that completes writes RXDATA or CRC. -/
theorem readByteDelivers : Obligations.ReadByteDelivers := by
  unfold Obligations.ReadByteDelivers
  refine ⟨fun s hs hop hph hlast hbit => ?_, fun s t hr hop hstep hrun => ?_⟩
  · obtain ⟨t, hstep, hengine⟩ := edge_endPhase hs (by rw [hph]; rfl) hlast.le
    rw [endPhase_rdRec _ hph, readSlotEnd_last hop hbit, readByteDone_engine] at hengine
    exact ⟨t, hstep, hengine⟩
  · obtain ⟨-, rfl⟩ := (step_next_iff s t).1 hstep
    exact cycleAfter_keeps_rxdata_crc hr ((busy_iff s).2 (by simp [hop])) (by simp [hrun])

/-! ## The end of a write slot (R158) -/

theorem enterWriteSlot_true (s : State) : enterWriteSlot true s = enter .wr1Lo s := rfl

theorem enterWriteSlot_false (s : State) : enterWriteSlot false s = enter .wr0Lo s := rfl

theorem writeSlotEnd_last {s : State} (h : s.bitcnt = 7#3) : writeSlotEnd s = complete s := if_pos h

theorem writeSlotEnd_next {s : State} (h : s.bitcnt ≠ 7#3) :
    writeSlotEnd s = enterWriteSlot (s.shreg.getLsbD 1) { s with shreg := s.shreg >>> 1, bitcnt := s.bitcnt + 1#3 } := if_neg h

/-- Settles O43: both release phases end in `writeSlotEnd`, which completes at the eighth bit and else enters the next bit's slot. -/
theorem writeSlotEnds : Obligations.WriteSlotEnds := by
  unfold Obligations.WriteSlotEnds
  intro s hs hph hlast
  have htimed : timed s.ph = true := by rcases hph with hph | hph <;> rw [hph] <;> rfl
  obtain ⟨t, hstep, hengine⟩ := edge_endPhase hs htimed hlast.le
  rw [endPhase_writeRelease _ hph] at hengine
  refine ⟨t, hstep, fun hbit => ?_, fun hbit hone => ?_, fun hbit hzero => ?_⟩
  · rw [hengine, writeSlotEnd_last hbit, complete_engine]
  · rw [hengine, writeSlotEnd_next hbit, hone, enterWriteSlot_true]; rfl
  · rw [hengine, writeSlotEnd_next hbit, hzero, enterWriteSlot_false]; rfl

/-! ## The accept of WRITE_BYTE (R157) -/

/-- On an idle engine WRITE_BYTE loads TXDATA and enters the write slot of its bit 0. -/
theorem exec_writeByte_idle {s : State} (h : s.op = .idle) :
    exec .writeByte s = .next (enterWriteSlot (s.txdata.getLsbD 0)
      { accept s with op := .writeByte, bitcnt := 0#3, shreg := s.txdata }) := exec_idle .writeByte s h

/-- While a command runs, a TXDATA write changes TXDATA alone at its edge. -/
theorem cycleAfter_txdata_write {s : State} {v : Byte} (hb : s.busy = true) (hw : HostWrites s .txdata v) :
    cycleAfter s = { cycleAfter (withoutWrite s) with txdata := v } := by
  have hr : s.port.rstN = true := hw.1
  obtain ⟨hpuen, hcrcrx, -, hebusy, hersvd⟩ := cycleAfter_noWrite_hostSide hr
  calc cycleAfter s
      = finishEdge s (writeTxdata v s) := by rw [cycleAfter_edge s hr, hostAfter_of_writes hw]; rfl
    _ = { cycleAfter (withoutWrite s) with
          puen := s.puen, crcrx := s.crcrx, txdata := v, ebusy := s.ebusy, ersvd := s.ersvd } :=
        finishEdge_noWrite (accepts_false_of_busy hb) rfl rfl hr
    _ = { cycleAfter (withoutWrite s) with txdata := v } := by rw [← hpuen, ← hcrcrx, ← hebusy, ← hersvd]

/-- Settles O22: the accept enters the slot of TXDATA's bit 0, and a later TXDATA write reaches neither `shreg` nor the rest. -/
theorem writeByteIsAccepted : Obligations.WriteByteIsAccepted := by
  unfold Obligations.WriteByteIsAccepted
  refine ⟨fun s hidle hone => ?_, fun s hidle hzero => ?_, fun s t u v _ hbusy hw hst hsu => ?_⟩
  · rw [exec_writeByte_idle hidle, hone, enterWriteSlot_true]; rfl
  · rw [exec_writeByte_idle hidle, hzero, enterWriteSlot_false]; rfl
  · obtain ⟨-, rfl⟩ := (step_next_iff s t).1 hst
    obtain ⟨-, rfl⟩ := (step_next_iff (withoutWrite s) u).1 hsu
    exact cycleAfter_txdata_write ((busy_iff s).2 hbusy) hw

end Sys2Proof.Machine
end

section
/-! SUPPORT. The CRC family: CRC_CLEAR, CRC_FEED, and the edges at which CRC changes (43_crc8.md). -/

namespace Sys2Proof.Machine

/-! ## The byte step of a byte with itself (R170) -/

/-- A data bit that equals bit 0 of the running value only shifts it. -/
theorem crc8Bit_getLsbD_zero (r : Byte) : crc8Bit r (r.getLsbD 0) = r >>> 1 := if_neg (by rw [Bool.xor_self]; decide)

/-- Step `i` of a byte folded into itself: the running value's bit 0 is then the byte's bit `i`. -/
theorem crc8Bit_ushiftRight (c : Byte) (i : Nat) : crc8Bit (c >>> i) (c.getLsbD i) = c >>> (i + 1) := by
  have hbit : c.getLsbD i = (c >>> i).getLsbD 0 := by rw [BitVec.getLsbD_ushiftRight, Nat.add_zero]
  rw [hbit, crc8Bit_getLsbD_zero, ← BitVec.shiftRight_add]

/-- A byte folded into itself is shifted out bit by bit. -/
theorem crc8Byte_self (c : Byte) : crc8Byte c c = 0x00#8 := by
  calc crc8Byte c c
      = crc8Byte (c >>> 0) c := by rw [BitVec.ushiftRight_zero]
    _ = c >>> 8 := by simp only [crc8Byte, List.foldl_cons, List.foldl_nil, crc8Bit_ushiftRight]
    _ = 0x00#8 := BitVec.ushiftRight_eq_zero (Nat.le_refl 8)

/-! ## The accepts of CRC_CLEAR and CRC_FEED (R172, R173) -/

/-- STATUS of an idle engine with DONE set: CRCZ by CRC, DONE 1, BUSY 0. -/
theorem status_bits_of_idle_done {s : State} (hidle : s.op = .idle) (hdone : s.done = true) :
    (hostRead s 1#3).getLsbD 6 = decide (s.crc = 0x00#8) ∧ (hostRead s 1#3).getLsbD 1 = true ∧
    (hostRead s 1#3).getLsbD 0 = false := by
  obtain ⟨hbusyBit, hdoneBit, -, -, hcrczBit, -⟩ := status_flag_bits s
  exact ⟨hcrczBit, hdoneBit.trans hdone, hbusyBit.trans ((busy_eq_false_iff s).2 hidle)⟩

/-- Settles O23: an idle engine accepts and then clears CRC and sets DONE, a busy one drops the byte. -/
theorem crcClearClears : Obligations.CrcClearClears := by
  unfold Obligations.CrcClearClears
  exact ⟨rfl, fun s hidle => ⟨_, exec_idle .crcClear s hidle, rfl, status_bits_of_idle_done hidle rfl⟩, exec_busy .crcClear⟩

/-- Settles O24: an idle engine accepts and then folds TXDATA and sets DONE, a busy one drops the byte; the examples are the byte
step's. -/
theorem crcFeedFoldsTxdata : Obligations.CrcFeedFoldsTxdata := by
  unfold Obligations.CrcFeedFoldsTxdata
  refine ⟨rfl, fun s hidle => ?_, exec_busy .crcFeed, by decide, crc8Byte_self _, crc8Byte_self _, crc8Byte_self⟩
  exact ⟨_, exec_idle .crcFeed s hidle, rfl, status_bits_of_idle_done hidle rfl⟩

/-! ## The edges at which CRC changes (R174) -/

/-- Of the accept effects only those of CRC_CLEAR and CRC_FEED write CRC. -/
theorem acceptEffect_crc (i : Instr) (s : State) :
    (i = .crcClear ∧ (acceptEffect i s).crc = 0x00#8) ∨
    (i = .crcFeed ∧ (acceptEffect i s).crc = crc8Byte s.crc s.txdata) ∨
    (acceptEffect i s).crc = s.crc := by
  cases i
  case crcClear => exact .inl ⟨rfl, rfl⟩
  case crcFeed => exact .inr (.inl ⟨rfl, rfl⟩)
  case writeByte =>
    refine .inr (.inr ?_)
    simp only [acceptEffect, writeByteAccept, enterWriteSlot]
    split <;> rfl
  all_goals exact .inr (.inr rfl)

/-- Of the bytes written to CMD only those of CRC_CLEAR and CRC_FEED can change CRC. -/
theorem commandAfter_crc (c : Byte) (s : State) :
    (c = 0x07#8 ∧ (commandAfter c s).crc = 0x00#8) ∨
    (c = 0x08#8 ∧ (commandAfter c s).crc = crc8Byte s.crc s.txdata) ∨
    (commandAfter c s).crc = s.crc := by
  unfold commandAfter
  split
  · exact .inr (.inr rfl)
  · split
    next i hi =>
      obtain rfl : c = encode i := encode_of_decode c i ((decodedInstr_eq_some c i).1 hi)
      exact (acceptEffect_crc i (accept s)).imp (And.imp_left (congrArg encode)) (Or.imp_left (And.imp_left (congrArg encode)))
    next => exact .inr (.inr rfl)

/-- What the host's access can make of CRC: only a CMD write of 0x07 or 0x08 changes it. -/
theorem hostAfter_crc {s : State} (hr : s.port.rstN = true) :
    (HostWrites s .cmd 0x07#8 ∧ (hostAfter s).crc = 0x00#8) ∨
    (HostWrites s .cmd 0x08#8 ∧ (hostAfter s).crc = crc8Byte s.crc s.txdata) ∨
    (hostAfter s).crc = s.crc := by
  rcases hostWrites_cases s hr with ⟨r, v, hw⟩ | ⟨-, heq⟩
  · rw [hostAfter_of_writes hw]
    cases r
    case cmd =>
      have hwrites : ∀ {c : Byte}, v = c → HostWrites s .cmd c := by rintro _ rfl; exact hw
      exact (commandAfter_crc v s).imp (And.imp_left hwrites) (Or.imp_left (And.imp_left hwrites))
    all_goals exact .inr (.inr rfl)
  · exact .inr (.inr (by rw [heq]))

/-- RD_REC is a phase of READ_BIT and READ_BYTE alone (R106). -/
theorem Invariant.op_of_rdRec {s : State} (h : Invariant s) (hph : s.ph = .rdRec) : s.op = .readBit ∨ s.op = .readByte := by
  have hphase := h.phase
  rw [hph] at hphase
  cases hop : s.op
  case readBit => exact .inl rfl
  case readByte => exact .inr rfl
  all_goals rw [hop] at hphase; cases hphase

/-- A tick that changes CRC is the completion of a READ_BYTE with CRCRX 1. -/
theorem tickStep_crc_change {b : Bool} {s : State} (h : Invariant s) (hne : (tickStep b s).crc ≠ s.crc) :
    s.op = .readByte ∧ (tickStep b s).op = .idle ∧ s.crcrx = true ∧ (tickStep b s).crc = crc8Byte s.crc s.shreg := by
  obtain ⟨-, -, ⟨-, hkept⟩ | ⟨hph, hbit, hidle, -, hcrc⟩, -⟩ := tick_results b s
  · exact absurd hkept hne
  · by_cases hrx : s.crcrx = true
    · rw [if_pos hrx] at hcrc
      exact ⟨(h.op_of_rdRec hph).resolve_left hbit, hidle, hrx, hcrc⟩
    · rw [if_neg hrx] at hcrc
      exact absurd hcrc hne

/-- Settles O51: an edge's CRC is the host access's on an idle engine and the tick's on a busy one. -/
theorem crcChangesAtThreeKindsOfEdge : Obligations.CrcChangesAtThreeKindsOfEdge := by
  unfold Obligations.CrcChangesAtThreeKindsOfEdge
  intro s t hs hr hstep hne
  obtain ⟨-, rfl⟩ := (step_next_iff s t).1 hstep
  cases hb : s.busy with
  | false =>
    have hcrc : (cycleAfter s).crc = (hostAfter s).crc := congrArg Engine.crc (cycle_engine_idle hr hb)
    rw [hcrc] at hne ⊢
    rcases hostAfter_crc hr with ⟨hw, hclear⟩ | ⟨hw, hfeed⟩ | hkept
    · exact .inl ⟨rfl, hw, hclear⟩
    · exact .inr (.inl ⟨rfl, hw, hfeed⟩)
    · exact absurd hkept hne
  | true =>
    have hengine := cycle_engine hr hb
    split at hengine
    · have hcrc : (cycleAfter s).crc = (tickStep s.sample s).crc := congrArg Engine.crc hengine
      have hop : (cycleAfter s).op = (tickStep s.sample s).op := congrArg Engine.op hengine
      rw [hcrc] at hne
      rw [hcrc, hop]
      exact .inr (.inr (tickStep_crc_change hs hne))
    · exact absurd (congrArg Engine.crc hengine) hne

end Sys2Proof.Machine
end

section
/-! SUPPORT. The exceptions family: the two rejections of a CMD byte (60_exceptions.md). -/

namespace Sys2Proof.Machine

/-! ## What a dropped byte leaves of the edge (R194, R195) -/

theorem commandAfter_of_busy (c : Byte) {s : State} (h : s.busy = true) : commandAfter c s = flagBusy s := if_pos h

theorem commandAfter_of_reserved {c : Byte} {s : State} (h : s.busy = false) (hc : 9 ≤ c.toNat) :
    commandAfter c s = flagReserved s := by
  simp [commandAfter, h, (decode_reserved c).2 hc]

theorem accepts_false_of_reserved {s : State} {c : Byte} (hw : HostWrites s .cmd c) (hc : 9 ≤ c.toNat) : accepts s = false := by
  rw [← Bool.not_eq_true, accepts_iff]
  rintro ⟨c', i, hw', -, hi⟩
  obtain ⟨-, rfl⟩ := hw.unique hw'
  have hnone : decodedInstr (decode c) = none := (decode_reserved c).2 hc
  rw [(decodedInstr_eq_some c i).2 hi] at hnone
  cases hnone

/-- A write that is no accept and leaves all but the ERR flags gives the edge of the same cycle with no write, but for those flags. -/
theorem cycleAfter_of_only_flags {s : State} {ebusy ersvd : Bool} (hr : s.port.rstN = true) (ha : accepts s = false)
    (h : hostAfter s = { s with ebusy := ebusy, ersvd := ersvd }) :
    cycleAfter s = { cycleAfter (withoutWrite s) with ebusy := ebusy, ersvd := ersvd } := by
  obtain ⟨hpuen, hcrcrx, htxdata, -, -⟩ := cycleAfter_noWrite_hostSide hr
  calc cycleAfter s
      = finishEdge s { s with ebusy := ebusy, ersvd := ersvd } := by rw [cycleAfter_edge s hr, h]
    _ = { cycleAfter (withoutWrite s) with
          puen := s.puen, crcrx := s.crcrx, txdata := s.txdata, ebusy := ebusy, ersvd := ersvd } :=
        finishEdge_noWrite ha rfl rfl hr
    _ = { cycleAfter (withoutWrite s) with ebusy := ebusy, ersvd := ersvd } := by rw [← hpuen, ← hcrcrx, ← htxdata]

theorem cycleAfter_busy_write {s : State} {c : Byte} (hb : s.busy = true) (hw : HostWrites s .cmd c) :
    cycleAfter s = { cycleAfter (withoutWrite s) with ebusy := true } := by
  obtain ⟨-, -, -, -, hersvd⟩ := cycleAfter_noWrite_hostSide hw.1
  have hdrop : hostAfter s = flagBusy s := (hostAfter_of_writes hw).trans (commandAfter_of_busy c hb)
  rw [cycleAfter_of_only_flags hw.1 (accepts_false_of_busy hb) hdrop, ← hersvd]

theorem cycleAfter_reserved_write {s : State} {c : Byte} (hb : s.busy = false) (hw : HostWrites s .cmd c) (hc : 9 ≤ c.toNat) :
    cycleAfter s = { cycleAfter (withoutWrite s) with ersvd := true } := by
  obtain ⟨-, -, -, hebusy, -⟩ := cycleAfter_noWrite_hostSide hw.1
  have hdrop : hostAfter s = flagReserved s := (hostAfter_of_writes hw).trans (commandAfter_of_reserved hb hc)
  rw [cycleAfter_of_only_flags hw.1 (accepts_false_of_reserved hw hc) hdrop, ← hebusy]

/-! ## When a flag falls (10_state.md R32) -/

/-- A flag that stood before the edge falls exactly by its ERR write: no CMD write can set it at that edge, the access having one
address. -/
theorem flag_falls_iff {s : State} {before after : Bool} {sets clears : Byte → Prop} (hbefore : before = true)
    (h : after = true ↔ (∃ c, HostWrites s .cmd c ∧ sets c) ∨ (before = true ∧ ¬ ∃ v, HostWrites s .err v ∧ clears v)) :
    after = false ↔ ∃ v, HostWrites s .err v ∧ clears v := by
  rw [← Bool.not_eq_true, h, not_or, not_and_not_right]
  constructor
  · exact fun ⟨_, hclear⟩ => hclear hbefore
  · rintro ⟨v, hw, hv⟩
    refine ⟨fun ⟨c, hw', _⟩ => ?_, fun _ => ⟨v, hw, hv⟩⟩
    cases (hw.unique hw').1

/-- Settles O26: a byte written while a command runs makes of the state `flagBusy` alone, and the invariant has DONE 0 there. -/
theorem busyWriteIsDropped : Obligations.BusyWriteIsDropped := by
  unfold Obligations.BusyWriteIsDropped
  obtain ⟨-, -, hflags⟩ := errorFlagsAreSticky
  refine ⟨fun s t u c hs hb hw hst hsu => ⟨?_, fun r hwrite => ?_⟩, fun s t hset hr hst =>
    flag_falls_iff hset (hflags s t hr hst).1⟩
  · obtain ⟨-, rfl⟩ := (step_next_iff s t).1 hst
    obtain ⟨-, rfl⟩ := (step_next_iff (withoutWrite s) u).1 hsu
    exact cycleAfter_busy_write hb hw
  · rw [commandWrite_eq, commandAfter_of_busy c hb] at hwrite
    cases hwrite
    exact hs.notDone hb

/-- Settles O27: a reserved byte written to an idle engine makes of the state `flagReserved` alone, and is no accept that would
restart the prescaler. -/
theorem reservedByteIsDropped : Obligations.ReservedByteIsDropped := by
  unfold Obligations.ReservedByteIsDropped
  obtain ⟨-, -, hflags⟩ := errorFlagsAreSticky
  refine ⟨fun s t u c _ hb hw hc hst hsu => ?_, fun s t hset hr hst =>
    flag_falls_iff hset (hflags s t hr hst).2⟩
  obtain ⟨-, rfl⟩ := (step_next_iff s t).1 hst
  obtain ⟨-, rfl⟩ := (step_next_iff (withoutWrite s) u).1 hsu
  exact cycleAfter_reserved_write hb hw hc

end Sys2Proof.Machine
end

section
/-! SUPPORT. The whole machine: the block reset and every clock cycle keep the invariant (10_state.md section 4). -/

namespace Sys2Proof.Machine

/-! ## The invariant from its parts -/

/-- The invariant is the engine's part of it, the prescaler's range and the number of synchronizer stages. -/
theorem EngineInvariant.invariant {s : State} (h : EngineInvariant s) (hl : s.params.legal = true)
    (hpre : s.preCnt < s.params.clkPerTick) (hsync : s.sync.length = s.params.syncStages) : Invariant s :=
  ⟨hl, h.phase, hpre, hsync, h.timerRuns, h.timerFits, h.polls, h.lowSamples, h.pcntFits, h.oneBit, h.notDone, h.oneOutcome,
    h.noOutcomeYet, h.slotBit⟩

/-- Settles O52: the reset engine meets its part, the prescaler is 0 and every stage is there. -/
theorem resetMeetsTheInvariant : Obligations.ResetMeetsTheInvariant := by
  unfold Obligations.ResetMeetsTheInvariant
  have hreset : ∀ p : Params, p.legal = true → Invariant (State.resetOf p) := fun p hl =>
    (resetOf_engineInvariant p).invariant hl (Params.legal_clk hl) List.length_replicate
  exact ⟨hreset _ (Params.nominal_legal (Nat.succ_pos _)), hreset⟩

/-! ## One clock cycle -/

theorem cycleAfter_of_reset {s : State} (h : s.port.rstN = false) : cycleAfter s = passCycle s (blockReset s) := by
  simp [cycleAfter, h]

theorem cycleAfter_engineInvariant {s : State} (h : EngineInvariant s) (hl : s.params.legal = true) (hr : s.port.rstN = true) :
    EngineInvariant (cycleAfter s) := by
  have hp := cycleAfter_params s
  cases hb : s.busy with
  | false =>
    exact (hostAfter_invariant h hl).of_engine (cycle_engine_idle hr hb) (hp.trans (hostAfter_keeps s).params.symm)
  | true =>
    have he := cycle_engine hr hb
    split at he
    · exact (tickStep_invariant h hl hb).of_engine he (hp.trans (tickStep_params _ s).symm)
    · exact h.of_engine he hp

theorem cycleAfter_preCnt_lt {s : State} (h : s.preCnt < s.params.clkPerTick) (hr : s.port.rstN = true) :
    (cycleAfter s).preCnt < s.params.clkPerTick := by
  by_cases ha : accepts s = true
  · rw [cycleAfter_preCnt_of_accepts hr ha]; omega
  · rw [cycleAfter_preCnt_of_not_accepts hr ha]; split <;> omega

theorem cycleAfter_sync_length {s : State} (h : s.sync ≠ []) (hr : s.port.rstN = true) :
    (cycleAfter s).sync.length = s.sync.length := by
  rw [cycleAfter_sync hr, List.length_cons, List.length_dropLast, Nat.sub_add_cancel (List.length_pos_iff.2 h)]

theorem Invariant.cycleAfter {s : State} (h : Invariant s) : Invariant (cycleAfter s) := by
  cases hr : s.port.rstN with
  | false =>
    rw [cycleAfter_of_reset hr]
    have hengine : EngineInvariant (passCycle s (blockReset s)) := (resetOf_engineInvariant s.params).of_engine rfl rfl
    exact hengine.invariant h.legal (Params.legal_clk h.legal) List.length_replicate
  | true =>
    refine (cycleAfter_engineInvariant h.engineInvariant h.legal hr).invariant ?_ ?_ ?_
    · rw [cycleAfter_params]; exact h.legal
    · rw [cycleAfter_params]; exact cycleAfter_preCnt_lt h.prescaler hr
    · rw [cycleAfter_params, cycleAfter_sync_length h.sync_ne_nil hr, h.stages]

/-- Settles O53: a cycle in reset leaves the reset engine, and an edge's engine is the host access's or the tick's, each of which
keeps the engine's part of the invariant. -/
theorem stepKeepsTheInvariant : Obligations.StepKeepsTheInvariant := by
  unfold Obligations.StepKeepsTheInvariant
  intro s t hs hstep
  obtain ⟨-, rfl⟩ := (step_next_iff s t).1 hstep
  exact hs.cycleAfter

/-! ## Runs -/

theorem Invariant.cyclesAfter {s : State} (h : Invariant s) (n : Nat) : Invariant (cyclesAfter n s) := by
  induction n with
  | zero => exact h
  | succ n ih => rw [cyclesAfter_succ]; exact ih.cycleAfter

/-- Settles O7: with legal parameters a step answers `cycleAfter`, whose parameters are those before. -/
theorem legalInstanceNeverStops : Obligations.LegalInstanceNeverStops := by
  unfold Obligations.LegalInstanceNeverStops
  exact fun s hl => ⟨cycleAfter s, step_eq s hl, cycleAfter_params s⟩

end Sys2Proof.Machine
end

section
/-! SUPPORT. The reset values and what a cycle in reset does (10_state.md section 5, 70_reset_and_hazards.md section 1). -/

namespace Sys2Proof.Machine

theorem sample_resetOf (p : Params) : (State.resetOf p).sample = true := by
  change (List.replicate p.syncStages true).getLastD true = true
  cases p.syncStages with
  | zero => rfl
  | succ n => rw [List.replicate_succ', List.getLastD_concat]

/-- Settles O3: each field is `State.resetOf`'s, and every stage of the synchronizer is 1. -/
theorem resetValues : Obligations.ResetValues := by
  unfold Obligations.ResetValues
  exact ⟨rfl, fun p => ⟨rfl, rfl, rfl, rfl, rfl, rfl, rfl, rfl, rfl, rfl, rfl, List.length_replicate,
    fun _ hb => List.eq_of_mem_replicate hb, rfl, rfl, rfl, rfl, rfl, rfl, rfl, rfl, rfl, rfl⟩⟩

/-- With both host bits of CTRL set its byte is that of LINE. -/
theorem hostRead_ctrl_of_enabled {s : State} (hpuen : s.puen = true) (hcrcrx : s.crcrx = true) :
    hostRead s 2#3 = if s.sample = true then 0x83#8 else 0x03#8 := by
  change BitVec.ofBool s.sample ++ 0b00000#5 ++ BitVec.ofBool s.crcrx ++ BitVec.ofBool s.puen = _
  rw [hpuen, hcrcrx]
  cases s.sample <;> decide

/-- Settles O4: STATUS has CRCZ alone, CTRL has CRCRX, PUEN and the level of the line. -/
theorem resetReads : Obligations.ResetReads := by
  unfold Obligations.ResetReads
  have hstatus : 0b0#1 ++ 0b1#1 ++ 0b0#1 ++ 0b00#2 ++ 0b0#1 ++ 0b0#1 ++ 0b0#1 = 0x40#8 := by decide
  have herr : 0b000000#6 ++ 0b0#1 ++ 0b0#1 = 0x00#8 := by decide
  refine fun p _ => ⟨rfl, hstatus, ?_, rfl, rfl, rfl, herr, rfl, fun t hpuen hcrcrx hlow => ?_⟩
  · rw [hostRead_ctrl_of_enabled rfl rfl, sample_resetOf]; rfl
  · rw [hostRead_ctrl_of_enabled hpuen hcrcrx, hlow]; rfl

/-- Settles O5: the cycle is the block reset's, and the port shows the reset state in it. -/
theorem blockResetHoldsResetValues : Obligations.BlockResetHoldsResetValues := by
  unfold Obligations.BlockResetHoldsResetValues
  intro s hl hr
  have hlive : live s = blockReset s := by simp [live, hr]
  refine ⟨?_, by rw [hlive]; rfl, by rw [hlive]; rfl⟩
  have hread := readPort_eq s
  rw [hr] at hread
  rw [step_eq s hl, cycleAfter_of_reset hr, passCycle, hread]
  rfl

end Sys2Proof.Machine
end

section
/-! SUPPORT. The commands: their bytes, their accept edges and their frame (30_encoding.md, 40_engine_timing.md section 2). -/

namespace Sys2Proof.Machine

/-- Settles O2: a byte that decodes to a command is its encoding, and each encoding decodes to its command. -/
theorem decodeAndEncodeAgree : Obligations.DecodeAndEncodeAgree := by
  unfold Obligations.DecodeAndEncodeAgree
  refine fun c i => ⟨encode_of_decode c i, ?_⟩
  rintro rfl
  exact decode_encode i

/-- Settles O8: the host's access is then the command's `exec`, and the edge is `finishEdge` of it. -/
theorem stepRunsTheDecodedCommand : Obligations.StepRunsTheDecodedCommand := by
  unfold Obligations.StepRunsTheDecodedCommand
  intro s c i hl hw hdec
  have hexec : exec i s = .next (hostAfter s) := by
    rw [hostAfter_of_writes hw, writeAfter, ← commandWrite_eq, commandWrite, hdec]
  exact ⟨hostAfter s, cycleAfter s, hexec, step_eq s hl, cycleAfter_edge s hw.1, cycleAfter_host s, cycleAfter_line s,
    cycleAfter_cycle s⟩

/-! ## The accept edges -/

/-- Settles O17: an idle engine accepts and enters RST_HI. -/
theorem resetIsAccepted : Obligations.ResetIsAccepted := exec_idle .reset

/-- Settles O18: an idle engine accepts, clears the outcome and starts the presence part. -/
theorem presenceIsAccepted : Obligations.PresenceIsAccepted := exec_idle .presence

/-- Settles O19: an idle engine accepts, clears the outcome and enters RST_HI. -/
theorem rstpresIsAccepted : Obligations.RstpresIsAccepted := exec_idle .rstpres

/-- Settles O20: an idle engine accepts and enters RD_LO with the bit counter 0. -/
theorem readBitIsAccepted : Obligations.ReadBitIsAccepted := exec_idle .readBit

/-- Settles O21: an idle engine accepts and enters RD_LO with the bit counter 0. -/
theorem readByteIsAccepted : Obligations.ReadByteIsAccepted := exec_idle .readByte

/-! ## The frame -/

/-- The engine registers each command's accept effect leaves alone. -/
structure KeepsResults (i : Instr) (s t : State) : Prop where
  rxdata : t.rxdata = s.rxdata
  rbit : t.rbit = s.rbit
  crc : i ≠ .crcClear → i ≠ .crcFeed → t.crc = s.crc
  outcome : i ≠ .presence → i ≠ .rstpres → t.present = s.present ∧ t.pfail = s.pfail
  shreg : i ≠ .writeByte → t.shreg = s.shreg
  bitcnt : i ≠ .readBit → i ≠ .readByte → i ≠ .writeByte → t.bitcnt = s.bitcnt
  pcnt : i ≠ .presence → t.pcnt = s.pcnt
  phase : i = .nop ∨ i = .crcClear ∨ i = .crcFeed → t.op = s.op ∧ t.ph = s.ph ∧ t.timer = s.timer

theorem KeepsResults.of_engine (i : Instr) {s t : State} (h : t.engine = s.engine) : KeepsResults i s t := by
  obtain ⟨hop, hph, htimer, hpcnt, hbitcnt, hshreg, -, hpresent, hpfail, hrbit, hrxdata, hcrc⟩ := engine_fields h
  exact ⟨hrxdata, hrbit, fun _ _ => hcrc, fun _ _ => ⟨hpresent, hpfail⟩, fun _ => hshreg, fun _ _ _ => hbitcnt,
    fun _ => hpcnt, fun _ => ⟨hop, hph, htimer⟩⟩

theorem acceptEffect_keepsResults (i : Instr) (s : State) : KeepsResults i s (acceptEffect i (accept s)) := by
  cases i
  case writeByte =>
    simp only [acceptEffect, writeByteAccept, enterWriteSlot]
    split <;> constructor <;> simp
  all_goals
    constructor <;> simp [acceptEffect, resetAccept, presenceAccept, rstpresAccept, readBitAccept, readByteAccept]

/-- Settles O25: a busy engine drops the command with EBUSY alone, and an idle one takes its accept effect. -/
theorem commandFrame : Obligations.CommandFrame := by
  unfold Obligations.CommandFrame
  intro i s t hexec
  rw [exec_next] at hexec
  cases hb : s.busy with
  | true =>
    rw [hb] at hexec
    cases hexec
    have h : KeepsResults i s (flagBusy s) := .of_engine i rfl
    exact ⟨rfl, rfl, rfl, rfl, rfl, rfl, rfl, rfl, rfl, rfl, rfl, rfl, nofun, h.crc, h.outcome, h.shreg, h.bitcnt, h.pcnt,
      h.phase⟩
  | false =>
    rw [hb] at hexec
    cases hexec
    have k := acceptEffect_keeps i (accept s)
    have h := acceptEffect_keepsResults i s
    exact ⟨k.puen, k.crcrx, k.txdata, h.rxdata, h.rbit, k.ersvd, k.sync, k.params, k.host, k.line, k.cycle, k.rdata,
      fun _ => k.ebusy, h.crc, h.outcome, h.shreg, h.bitcnt, h.pcnt, h.phase⟩

end Sys2Proof.Machine
end

section
/-! SUPPORT. The CRC-8 function: its bit step is linear and injective in the running value (43_crc8.md sections 1 and 3). -/

namespace Sys2Proof.Machine

/-! ## The bit step -/

/-- XOR with 0x18 before the shift and bit 7 set after it are XOR with 0x8C after it. -/
theorem xor_shift_setTop : ∀ r : Byte, ((r ^^^ 0x18#8) >>> 1) ||| 0x80#8 = (r >>> 1) ^^^ 0x8C#8 := by decide

theorem crc8Bit_eq_xor (r : Byte) (d : Bool) : crc8Bit r d = (r >>> 1) ^^^ (if r.getLsbD 0 = d then 0x00#8 else 0x8C#8) := by
  unfold crc8Bit
  by_cases h : r.getLsbD 0 = d
  · rw [if_pos h, h, Bool.xor_self, if_neg Bool.false_ne_true, BitVec.xor_zero]
  · rw [if_neg h, if_pos (bne_iff_ne.2 h), xor_shift_setTop]

/-- Settles O48: the byte step is that fold by definition, and the bit step's two cases are one XOR after the shift. -/
theorem crcStepIsTheReflectedPolynomial : Obligations.CrcStepIsTheReflectedPolynomial := by
  unfold Obligations.CrcStepIsTheReflectedPolynomial
  exact ⟨fun _ _ => rfl, fun _ _ => rfl, crc8Bit_eq_xor⟩

/-- The bit step is linear. -/
theorem crc8Bit_xor (r r' : Byte) (d d' : Bool) : crc8Bit (r ^^^ r') (d ^^ d') = crc8Bit r d ^^^ crc8Bit r' d' := by
  have hpoly : ∀ b b' : Bool, (if (b ^^ b') = (d ^^ d') then 0x00#8 else 0x8C#8) =
      (if b = d then 0x00#8 else 0x8C#8) ^^^ (if b' = d' then 0x00#8 else 0x8C#8) := by
    revert d d'; decide
  simp only [crc8Bit_eq_xor, BitVec.ushiftRight_xor_distrib, BitVec.getLsbD_xor, hpoly]
  ac_rfl

/-- The top bit of the running value shows whether the polynomial was added. -/
theorem crc8Bit_getLsbD_seven (r : Byte) (d : Bool) : (crc8Bit r d).getLsbD 7 = (r.getLsbD 0 ^^ d) := by
  rw [crc8Bit_eq_xor, BitVec.getLsbD_xor, BitVec.getLsbD_ushiftRight, BitVec.getLsbD_of_ge r (1 + 7) (by decide), Bool.false_xor]
  cases r.getLsbD 0 <;> cases d <;> decide

theorem eq_of_ushiftRight_one {r r' : Byte} (h0 : r.getLsbD 0 = r'.getLsbD 0) (h : r >>> 1 = r' >>> 1) : r = r' := by
  refine BitVec.eq_of_getLsbD_eq fun i _ => ?_
  cases i with
  | zero => exact h0
  | succ i =>
    have hi := congrArg (fun v => BitVec.getLsbD v i) h
    simpa only [BitVec.getLsbD_ushiftRight, Nat.add_comm 1 i] using hi

theorem crc8Bit_injective (d : Bool) : Function.Injective fun r => crc8Bit r d := by
  intro r r' h
  have h : crc8Bit r d = crc8Bit r' d := h
  have h0 : r.getLsbD 0 = r'.getLsbD 0 := by
    have htop := congrArg (fun v => BitVec.getLsbD v 7) h
    simpa only [crc8Bit_getLsbD_seven, Bool.xor_left_inj] using htop
  rw [crc8Bit_eq_xor, crc8Bit_eq_xor, h0] at h
  exact eq_of_ushiftRight_one h0 ((BitVec.xor_left_inj _).1 h)

/-! ## The byte step -/

theorem crc8Byte_xor (c c' d d' : Byte) : crc8Byte (c ^^^ c') (d ^^^ d') = crc8Byte c d ^^^ crc8Byte c' d' := by
  simp only [crc8Byte, List.foldl_cons, List.foldl_nil, BitVec.getLsbD_xor, crc8Bit_xor]

theorem crc8Byte_injective (d : Byte) : Function.Injective fun c => crc8Byte c d :=
  (crc8Bit_injective (d.getLsbD 7)).comp <| (crc8Bit_injective (d.getLsbD 6)).comp <| (crc8Bit_injective (d.getLsbD 5)).comp <|
    (crc8Bit_injective (d.getLsbD 4)).comp <| (crc8Bit_injective (d.getLsbD 3)).comp <| (crc8Bit_injective (d.getLsbD 2)).comp <|
    (crc8Bit_injective (d.getLsbD 1)).comp (crc8Bit_injective (d.getLsbD 0))

/-- Settles O49: by linearity the byte step of `c` and `d` is that of `c` with itself, which is 0, XOR that of 0 and `c XOR d`. -/
theorem crcDependsOnTheXor : Obligations.CrcDependsOnTheXor := by
  unfold Obligations.CrcDependsOnTheXor
  intro c d
  calc crc8Byte c d
      = crc8Byte (c ^^^ 0x00#8) (c ^^^ (c ^^^ d)) := by
        rw [BitVec.xor_zero, ← BitVec.xor_assoc, BitVec.xor_self, BitVec.zero_xor]
    _ = crc8Byte c c ^^^ crc8Byte 0x00#8 (c ^^^ d) := crc8Byte_xor c 0x00#8 c (c ^^^ d)
    _ = crc8Byte 0x00#8 (c ^^^ d) := by rw [crc8Byte_self, BitVec.zero_xor]

/-! ## Sequences -/

theorem crc8_append_singleton (init : Byte) (q : List Byte) (d : Byte) : crc8 init (q ++ [d]) = crc8Byte (crc8 init q) d :=
  List.foldl_append

/-- Settles O50: the last byte step gives 0 for the running value itself, and for no other byte, being injective. -/
theorem crcOfAFrameWithItsCrcIsZero : Obligations.CrcOfAFrameWithItsCrcIsZero := by
  unfold Obligations.CrcOfAFrameWithItsCrcIsZero
  refine ⟨fun _ => rfl, crc8_append_singleton, fun init q c => ?_⟩
  rw [crc8_append_singleton, ← crc8Byte_self c, (crc8Byte_injective c).eq_iff, eq_comm]

end Sys2Proof.Machine
end

section
/-! SUPPORT. One clock edge and the host: reads, the host's own registers, and what an edge does not depend on (20_memory.md). -/

namespace Sys2Proof.Machine

/-! ## The inputs of an edge

What an edge makes of a state that differs in its inputs alone: the synchronizer and the host's accesses to come. -/

/-- `s` with the synchronizer `y` and the port cycles `l`. -/
def State.withInputs (s : State) (y : List Bool) (l : List PortCycle) : State := { s with sync := y, host := l }

theorem acceptEffect_withInputs (i : Instr) (s : State) (y : List Bool) (l : List PortCycle) :
    acceptEffect i (accept (s.withInputs y l)) = (acceptEffect i (accept s)).withInputs y l := by
  cases i
  case writeByte =>
    show enterWriteSlot (s.txdata.getLsbD 0) _ = (enterWriteSlot (s.txdata.getLsbD 0) _).withInputs y l
    cases s.txdata.getLsbD 0 <;> rfl
  all_goals rfl

theorem commandAfter_withInputs (c : Byte) (s : State) (y : List Bool) (l : List PortCycle) :
    commandAfter c (s.withInputs y l) = (commandAfter c s).withInputs y l := by
  unfold commandAfter
  show (if s.busy = true then _ else _) = _
  by_cases hb : s.busy = true
  · rw [if_pos hb, if_pos hb]; rfl
  · rw [if_neg hb, if_neg hb]
    cases decodedInstr (decode c) with
    | none => rfl
    | some i => exact acceptEffect_withInputs i s y l

/-- The host's access depends on the inputs by the present write alone. -/
theorem hostAfter_withInputs {s : State} {y : List Bool} {l : List PortCycle} (hwe : (s.withInputs y l).port.we = s.port.we)
    (haddr : (s.withInputs y l).port.addr = s.port.addr) (hdata : (s.withInputs y l).port.wdata = s.port.wdata) :
    hostAfter (s.withInputs y l) = (hostAfter s).withInputs y l := by
  unfold hostAfter
  rw [hwe, haddr, hdata]
  by_cases hw : s.port.we = true
  · rw [if_pos hw, if_pos hw]
    cases regAt s.port.addr
    case cmd => exact commandAfter_withInputs _ s y l
    all_goals rfl
  · rw [if_neg hw, if_neg hw]

/-- An edge whose engine and acceptance do not notice the change of inputs. -/
theorem finishEdge_withInputs {s t : State} {y : List Bool} {l : List PortCycle}
    (he : (finishEdge (s.withInputs y l) (t.withInputs y l)).engine = (finishEdge s t).engine)
    (ha : accepts (s.withInputs y l) = accepts s) :
    finishEdge (s.withInputs y l) (t.withInputs y l) =
      { finishEdge s t with sync := s.dqI :: y.dropLast, host := l.tail, rdata := (s.withInputs y l).readPort } := by
  obtain ⟨hpuen, hcrcrx, htxdata, hebusy, hersvd, hparams⟩ := finishEdge_hostSide s t
  obtain ⟨hpuen', hcrcrx', htxdata', hebusy', hersvd', hparams'⟩ := finishEdge_hostSide (s.withInputs y l) (t.withInputs y l)
  have hpre := finishEdge_preCnt s t
  have hpre' := finishEdge_preCnt (s.withInputs y l) (t.withInputs y l)
  rw [ha] at hpre'
  exact State.eq_of_engine he (hpuen'.trans hpuen.symm) (hcrcrx'.trans hcrcrx.symm) (htxdata'.trans htxdata.symm)
    (hebusy'.trans hebusy.symm) (hersvd'.trans hersvd.symm) rfl (hpre'.trans hpre.symm) (hparams'.trans hparams.symm)
    rfl rfl rfl rfl

/-! ## Reads (20_memory.md section 1) -/

/-- Leaving out the read of a cycle changes what the port shows in it, and nothing else. -/
theorem cycleAfter_withoutRead (s : State) :
    cycleAfter (withoutRead s) = { cycleAfter s with rdata := (cycleAfter (withoutRead s)).rdata } := by
  cases hr : s.port.rstN with
  | false => rw [cycleAfter_of_reset hr, cycleAfter_of_reset (s := withoutRead s) hr]; rfl
  | true =>
    have hhost : hostAfter (withoutRead s) = (hostAfter s).withInputs s.sync (withoutRead s).host :=
      hostAfter_withInputs rfl rfl rfl
    rw [cycleAfter_edge s hr, cycleAfter_edge (withoutRead s) hr, hhost]
    exact finishEdge_withInputs (finish_congr rfl rfl rfl rfl rfl rfl) rfl

/-- Settles O31: the port shows `State.readPort`, and the cycle's read reaches nothing else. -/
theorem readsHaveNoSideEffect : Obligations.ReadsHaveNoSideEffect := by
  unfold Obligations.ReadsHaveNoSideEffect
  intro s t hstep
  obtain ⟨hl, rfl⟩ := (step_next_iff s t).1 hstep
  refine ⟨(cycleAfter_rdata s).trans (readPort_eq s), cycleAfter (withoutRead s), step_eq (withoutRead s) hl, ?_⟩
  rw [cycleAfter_withoutRead]

/-! ## The host's own registers (10_state.md section 3) -/

theorem writeAfter_control {r : Reg} (v : Byte) (s : State) (h : r ≠ .ctrl) :
    (writeAfter r v s).puen = s.puen ∧ (writeAfter r v s).crcrx = s.crcrx := by
  cases r
  case cmd => exact ⟨(commandAfter_side v s).1, (commandAfter_side v s).2.1⟩
  case ctrl => exact absurd rfl h
  all_goals exact ⟨rfl, rfl⟩

theorem writeAfter_txdata {r : Reg} (v : Byte) (s : State) (h : r ≠ .txdata) : (writeAfter r v s).txdata = s.txdata := by
  cases r
  case cmd => exact (commandAfter_side v s).2.2.1
  case txdata => exact absurd rfl h
  all_goals rfl

/-- A fact about the host's access that holds with no write and with a write of any other register than `r`. -/
theorem hostAfter_of_not_writes {P : State → Prop} {s : State} {r : Reg} (hr : s.port.rstN = true)
    (h : ¬ ∃ v, HostWrites s r v) (hnone : P s) (hother : ∀ r' v, r' ≠ r → P (writeAfter r' v s)) : P (hostAfter s) := by
  rcases hostWrites_cases s hr with ⟨r', v, hw⟩ | ⟨-, heq⟩
  · rw [hostAfter_of_writes hw]
    refine hother r' v ?_
    rintro rfl
    exact h ⟨v, hw⟩
  · rw [heq]; exact hnone

/-- Settles O32: an edge takes CTRL and TXDATA from the host's access, and only their own writes touch them. -/
theorem controlRegistersAreTheHosts : Obligations.ControlRegistersAreTheHosts := by
  unfold Obligations.ControlRegistersAreTheHosts
  refine ⟨fun _ => rfl, fun s t hr hstep => ?_⟩
  obtain ⟨-, rfl⟩ := (step_next_iff s t).1 hstep
  obtain ⟨hpuen, hcrcrx, htxdata, -, -⟩ := cycleAfter_hostSide hr
  rw [hpuen, hcrcrx, htxdata]
  refine ⟨fun v hw => ?_, fun hno => ?_, fun v hw => ?_, fun hno => ?_⟩
  · rw [hostAfter_of_writes hw]; exact ⟨rfl, rfl⟩
  · exact hostAfter_of_not_writes (P := fun t => t.puen = s.puen ∧ t.crcrx = s.crcrx) hr hno ⟨rfl, rfl⟩
      fun _ v hne => writeAfter_control v s hne
  · rw [hostAfter_of_writes hw]; rfl
  · exact hostAfter_of_not_writes (P := fun t => t.txdata = s.txdata) hr hno rfl fun _ v hne => writeAfter_txdata v s hne

/-! ## A busy edge does not depend on the access (40_engine_timing.md section 2) -/

/-- Settles O33: while a command runs the access writes neither the engine nor the prescaler, and the tick, the prescaler and the
synchronizer read the state before the edge. -/
theorem oneBusyEdgeIsTheSameForEveryAccess : Obligations.OneBusyEdgeIsTheSameForEveryAccess := by
  unfold Obligations.OneBusyEdgeIsTheSameForEveryAccess
  intro s t u c _ hb hr hrc hst hsu
  obtain ⟨-, rfl⟩ := (step_next_iff s t).1 hst
  obtain ⟨-, rfl⟩ := (step_next_iff (withPort c s) u).1 hsu
  have hb' : (withPort c s).busy = true := hb
  have hr' : (withPort c s).port.rstN = true := hrc
  refine ⟨?_, ?_, ?_⟩
  · rw [cycleAfter_edge s hr, cycleAfter_edge (withPort c s) hr']
    refine finish_congr rfl rfl rfl rfl rfl ?_
    rw [(hostAfter_busy s hb).1, (hostAfter_busy (withPort c s) hb').1]; rfl
  · rw [edge_preCnt hr hb, edge_preCnt hr' hb']; rfl
  · rw [cycleAfter_sync hr, cycleAfter_sync hr']; rfl

/-! ## The line at an edge that samples nothing (40_engine_timing.md section 3) -/

/-- At an edge that samples nothing the engine does not notice another synchronizer. -/
theorem finishEdge_engine_withSync {s : State} (y : List Bool) (t : State)
    (h : s.busy = true → s.tick = true → s.ph ≠ .prWait ∧ s.ph ≠ .prLow ∧ (s.ph = .rdSmp → 1 < s.timer)) :
    (finishEdge (s.withInputs y s.host) (t.withInputs y s.host)).engine = (finishEdge s t).engine := by
  rw [finishEdge_engine, finishEdge_engine]
  show (if (s.busy && s.tick) = true then _ else t.engine) = _
  by_cases hbt : (s.busy && s.tick) = true
  · rw [if_pos hbt, if_pos hbt]
    rw [Bool.and_eq_true] at hbt
    obtain ⟨hwait, hlow, hsmp⟩ := h hbt.1 hbt.2
    rw [tickStep_sample_irrelevant s.sample (s.withInputs y s.host).sample hwait hlow hsmp]
    exact tickStep_congr _ rfl rfl rfl
  · rw [if_neg hbt, if_neg hbt]

/-- Settles O54: the edge reads the synchronizer by the sample of the tick alone, which is then no sample edge. -/
theorem lineIsReadOnlyAtSampleEdges : Obligations.LineIsReadOnlyAtSampleEdges := by
  unfold Obligations.LineIsReadOnlyAtSampleEdges
  intro s t u y hno hst hsu
  change step (s.withInputs y s.host) = .next u at hsu
  obtain ⟨-, rfl⟩ := (step_next_iff s t).1 hst
  obtain ⟨-, rfl⟩ := (step_next_iff _ u).1 hsu
  cases hr : s.port.rstN with
  | false => rw [cycleAfter_of_reset hr, cycleAfter_of_reset (s := s.withInputs y s.host) hr]; rfl
  | true =>
    rw [cycleAfter_edge s hr, cycleAfter_edge (s.withInputs y s.host) hr, hostAfter_withInputs rfl rfl rfl]
    refine finishEdge_withInputs (finishEdge_engine_withSync y _ fun hb ht => ?_) rfl
    simp only [hb, ht, true_and, not_or, not_and, Nat.not_le] at hno
    exact hno

end Sys2Proof.Machine
end

section
/-! SUPPORT. The end actions of the phases, and what an edge that ends a command can do (40_engine_timing.md section 3). -/

namespace Sys2Proof.Machine

/-! ## The end actions as updates of the engine -/

theorem enter_engine (ph : Phase) (s : State) : (enter ph s).engine = { s.engine with ph := ph, timer := dur s.params ph } := rfl

theorem startPresence_engine (s : State) : (startPresence s).engine = { s.engine with ph := .prWait, pcnt := 0 } := rfl

/-- The phase that a phase without another end action enters at its last tick. -/
def nextPhase : Phase → Option Phase
  | .rstHi => some .rstLo
  | .rstLo => some .rstRel
  | .rdLo => some .rdSmp
  | .wr1Lo => some .wr1Rel
  | .wr0Lo => some .wr0Rel
  | .none | .rstRel | .prWait | .prLow | .rdSmp | .rdRec | .wr1Rel | .wr0Rel => none

theorem timed_of_nextPhase {ph ph' : Phase} (h : nextPhase ph = some ph') : timed ph = true ∧ timed ph' = true := by
  cases ph <;> cases h <;> exact ⟨rfl, rfl⟩

theorem endPhase_of_nextPhase (b : Bool) {s : State} {ph : Phase} (h : nextPhase s.ph = some ph) : endPhase b s = enter ph s := by
  cases hph : s.ph <;> rw [hph] at h <;> cases h <;> rw [endPhase, hph]

theorem endPhase_rstRel (b : Bool) {s : State} (h : s.ph = .rstRel) : endPhase b s = resetSequenceEnd s := by
  rw [endPhase, h]

theorem resetSequenceEnd_reset {s : State} (h : s.op = .reset) : resetSequenceEnd s = complete s := if_pos h

theorem resetSequenceEnd_rstpres {s : State} (h : s.op = .rstpres) : resetSequenceEnd s = startPresence s := if_neg (by simp [h])

theorem readSlotEnd_readBit {s : State} (h : s.op = .readBit) : readSlotEnd s = complete s := if_pos h

theorem readSlotEnd_next {s : State} (h : s.op = .readByte) (hbit : s.bitcnt ≠ 7#3) :
    readSlotEnd s = enter .rdLo { s with bitcnt := s.bitcnt + 1#3 } := by
  rw [readSlotEnd, if_neg (by simp [h]), if_neg hbit]

/-- Settles O13: the tables are `drvOf` and `dur`, and the edge at the last tick runs the phase's end action. -/
theorem phaseTable : Obligations.PhaseTable := by
  unfold Obligations.PhaseTable
  refine ⟨fun _ => ⟨rfl, rfl⟩, fun s hs hlast => ?_⟩
  obtain ⟨t, hstep, hengine⟩ := edge_tick s hs
  have hend : timed s.ph = true → t.engine = (endPhase s.sample s).engine := fun ht => by
    rw [hengine, tickStep_end _ s ht hlast.le]
  have hnext : ∀ ph, nextPhase s.ph = some ph → t.engine = { s.engine with ph := ph, timer := dur s.params ph } := by
    intro ph h
    rw [hend (timed_of_nextPhase h).1, endPhase_of_nextPhase _ h, enter_engine]
  refine ⟨t, hstep, fun hph => hnext _ (by rw [hph]; rfl), fun hph => hnext _ (by rw [hph]; rfl), fun hph hop => ?_,
    fun hph hop => ?_, fun hph => hnext _ (by rw [hph]; rfl), fun hph => hnext _ (by rw [hph]; rfl),
    fun hph => hnext _ (by rw [hph]; rfl)⟩
  · rw [hend (by rw [hph]; rfl), endPhase_rstRel _ hph, resetSequenceEnd_reset hop, complete_engine]
  · rw [hend (by rw [hph]; rfl), endPhase_rstRel _ hph, resetSequenceEnd_rstpres hop, startPresence_engine]

/-- Settles O41: RD_REC ends in `readSlotEnd`, which completes a READ_BIT and counts a READ_BYTE's bit. -/
theorem readSlotEnds : Obligations.ReadSlotEnds := by
  unfold Obligations.ReadSlotEnds
  intro s hs hph hlast
  obtain ⟨t, hstep, hengine⟩ := edge_endPhase hs (by rw [hph]; rfl) hlast.le
  rw [endPhase_rdRec _ hph] at hengine
  refine ⟨t, hstep, fun hop => ?_, fun hop hbit => ?_⟩
  · rw [hengine, readSlotEnd_readBit hop, complete_engine]
  · rw [hengine, readSlotEnd_next hop hbit, enter_engine]; rfl

/-! ## Completion edges -/

/-- A running command ends at a tick alone. -/
theorem cycleAfter_engine_of_ends {s : State} (hr : s.port.rstN = true) (hb : s.busy = true)
    (hend : (cycleAfter s).busy = false) : (cycleAfter s).engine = (tickStep s.sample s).engine := by
  have hengine := cycle_engine hr hb
  split at hengine
  · exact hengine
  · rw [busy_of_engine hengine, hb] at hend
    cases hend

/-- Settles O14: the tick that ends a command leaves `complete`'s engine and none of the hidden counters changed. -/
theorem completionReleasesTheLine : Obligations.CompletionReleasesTheLine := by
  unfold Obligations.CompletionReleasesTheLine
  intro s t _ hr hb hstep hend
  obtain ⟨-, rfl⟩ := (step_next_iff s t).1 hstep
  obtain ⟨hop, hph, htimer, hpcnt, hbitcnt, hshreg, hdone, -⟩ := engine_fields (cycleAfter_engine_of_ends hr hb hend)
  have hidle := (busy_eq_false_iff _).1 hend
  obtain ⟨-, -, -, hkept | ⟨-, hnone, hset, htimer', hpcnt', hbitcnt', hshreg'⟩⟩ := tick_results s.sample s
  · rw [← hop, hidle] at hkept
    exact absurd hkept.symm ((busy_iff s).1 hb)
  · have hph' := hph.trans hnone
    refine ⟨hidle, hph', hdone.trans hset, ?_, htimer.trans htimer', hpcnt.trans hpcnt', hbitcnt.trans hbitcnt',
      hshreg.trans hshreg'⟩
    rw [State.dqOe, State.drv, hph']
    rfl

/-! ## What an edge of an idle engine writes -/

/-- The engine of an idle machine changes at an edge only by an accepted command. -/
theorem hostAfter_engine_of_idle {s : State} (hr : s.port.rstN = true) (hb : s.busy = false) :
    (hostAfter s).engine = s.engine ∨ ∃ i, HostWrites s .cmd (encode i) ∧ exec i s = .next (hostAfter s) := by
  rcases hostWrites_cases s hr with ⟨r, v, hw⟩ | ⟨-, heq⟩
  · cases r
    case cmd =>
      cases hdec : decodedInstr (decode v) with
      | none =>
        left
        have hdrop : hostAfter s = flagReserved s :=
          (hostAfter_of_writes hw).trans (commandAfter_of_reserved hb ((decode_reserved v).1 hdec))
        rw [hdrop]; rfl
      | some i =>
        right
        have hi := (decodedInstr_eq_some v i).1 hdec
        refine ⟨i, encode_of_decode v i hi ▸ hw, ?_⟩
        rw [hostAfter_of_writes hw, writeAfter, ← commandWrite_eq, commandWrite, hi]
    all_goals left; rw [hostAfter_of_writes hw]; rfl
  · left; rw [heq]

/-! ## RXDATA and RBIT (10_state.md section 3) -/

theorem hostAfter_keeps_receive {s : State} (hr : s.port.rstN = true) (hb : s.busy = false) :
    (hostAfter s).rxdata = s.rxdata ∧ (hostAfter s).rbit = s.rbit := by
  rcases hostAfter_engine_of_idle hr hb with heq | ⟨i, -, hexec⟩
  · exact ⟨congrArg Engine.rxdata heq, congrArg Engine.rbit heq⟩
  · obtain ⟨-, -, -, hrxdata, hrbit, -⟩ := commandFrame i s _ hexec
    exact ⟨hrxdata, hrbit⟩

/-- Settles O47: no access writes them, and of the ticks only a READ_BYTE's completion and the end of RD_SMP do. -/
theorem receiveRegistersChangeOnlyByReads : Obligations.ReceiveRegistersChangeOnlyByReads := by
  unfold Obligations.ReceiveRegistersChangeOnlyByReads
  intro s t hs hr hstep
  obtain ⟨-, rfl⟩ := (step_next_iff s t).1 hstep
  cases hb : s.busy with
  | false =>
    obtain ⟨hrxdata, hrbit⟩ := hostAfter_keeps_receive hr hb
    have hengine := cycle_engine_idle hr hb
    exact ⟨fun hne => absurd ((congrArg Engine.rxdata hengine).trans hrxdata) hne,
      fun hne => absurd ((congrArg Engine.rbit hengine).trans hrbit) hne⟩
  | true =>
    have hengine := cycle_engine hr hb
    split at hengine
    · obtain ⟨hop, -, -, -, -, -, -, -, -, hrbit, hrxdata, -⟩ := engine_fields hengine
      rw [hop, hrbit, hrxdata]
      obtain ⟨-, hbit, hbyte, -⟩ := tick_results s.sample s
      refine ⟨fun hne => ?_, fun hne => ?_⟩
      · obtain ⟨hkept, -⟩ | ⟨hph, hop, hidle, hrx, -⟩ := hbyte
        · exact absurd hkept hne
        · exact ⟨(hs.op_of_rdRec hph).resolve_left hop, hidle, hrx⟩
      · obtain hkept | ⟨hph, hset⟩ := hbit
        · exact absurd hkept hne
        · exact ⟨rfl, hph, hset⟩
    · exact ⟨fun hne => absurd (congrArg Engine.rxdata hengine) hne, fun hne => absurd (congrArg Engine.rbit hengine) hne⟩

/-! ## PRESENT and PFAIL (60_exceptions.md section 2) -/

/-- The phases of PRESENCE and RSTPRES (R106). -/
theorem Invariant.ph_of_checksPresence {s : State} (h : Invariant s) (hc : checksPresence s.op = true) :
    (s.ph = .rstHi ∨ s.ph = .rstLo ∨ s.ph = .rstRel) ∧ s.op = .rstpres ∨ s.ph = .prWait ∨ s.ph = .prLow := by
  have hphase := h.phase
  revert hphase hc
  cases s.op <;> cases s.ph <;> decide

/-- The reset pulse of an RSTPRES does not end the command. -/
theorem tickStep_op_of_rstpres (b : Bool) {s : State} (hph : s.ph = .rstHi ∨ s.ph = .rstLo ∨ s.ph = .rstRel)
    (hop : s.op = .rstpres) : (tickStep b s).op = .rstpres := by
  have ht : timed s.ph = true := by rcases hph with h | h | h <;> rw [h] <;> rfl
  by_cases hlast : 1 < s.timer
  · rw [tickStep_count b s ht hlast]; exact hop
  · rw [tickStep_end b s ht (Nat.not_lt.1 hlast)]
    rcases hph with h | h | h
    · rw [endPhase_of_nextPhase b (ph := .rstLo) (by rw [h]; rfl)]; exact hop
    · rw [endPhase_of_nextPhase b (ph := .rstRel) (by rw [h]; rfl)]; exact hop
    · rw [endPhase_rstRel b h, resetSequenceEnd_rstpres hop]; exact hop

/-- A poll that ends a check with no outcome so far records exactly one. -/
theorem tickStep_one_outcome {b : Bool} {s : State} (h : Invariant s) (hc : checksPresence s.op = true)
    (hend : (tickStep b s).op = .idle) : (tickStep b s).present = true ↔ (tickStep b s).pfail = .none := by
  obtain ⟨hpresent, hpfail⟩ := h.noOutcomeYet hc
  have hbusy : s.op ≠ .idle := by rintro hop; rw [hop] at hc; cases hc
  rcases h.ph_of_checksPresence hc with ⟨hph, hop⟩ | hph | hph
  · rw [tickStep_op_of_rstpres b hph hop] at hend
    cases hend
  · rw [tickStep_prWait b s hph, presenceWaitTick] at hend ⊢
    split at hend
    · exact absurd hend hbusy
    · rw [if_neg ‹_›]
      split at hend
      · rw [if_pos ‹_›]; simp [hpresent]
      · exact absurd hend hbusy
  · rw [tickStep_prLow b s hph, presenceLowTick] at hend ⊢
    split at hend
    · rw [if_pos ‹_›]
      split <;> simp [hpresent, hpfail]
    · rw [if_neg ‹_›]
      split at hend
      · rw [if_pos ‹_›]; simp [hpresent]
      · exact absurd hend hbusy

/-- An accepted command that changes PRESENT or PFAIL is PRESENCE or RSTPRES, and clears both. -/
theorem exec_changes_outcome {i : Instr} {s t : State} (hb : s.busy = false) (hexec : exec i s = .next t)
    (hne : t.present ≠ s.present ∨ t.pfail ≠ s.pfail) :
    (i = .presence ∨ i = .rstpres) ∧ t.present = false ∧ t.pfail = .none := by
  have hi : i = .presence ∨ i = .rstpres := by
    by_contra hno
    obtain ⟨h1, h2⟩ := not_or.1 hno
    obtain ⟨-, -, -, -, -, -, -, -, -, -, -, -, -, -, hkept, -⟩ := commandFrame i s t hexec
    obtain ⟨hpresent, hpfail⟩ := hkept h1 h2
    exact hne.elim (absurd hpresent) (absurd hpfail)
  refine ⟨hi, ?_⟩
  rw [exec_idle i s ((busy_eq_false_iff s).1 hb)] at hexec
  cases hexec
  rcases hi with rfl | rfl <;> exact ⟨rfl, rfl⟩

/-- Settles O36: the poll that ends a check records one outcome; PRESENT and PFAIL change by such a poll, or by the accept. -/
theorem presenceEndsWithOneOutcome : Obligations.PresenceEndsWithOneOutcome := by
  unfold Obligations.PresenceEndsWithOneOutcome
  refine ⟨fun s t hs hr hc hstep hend => ?_, fun s t hr hstep hne => ?_⟩
  · obtain ⟨-, rfl⟩ := (step_next_iff s t).1 hstep
    have hb : s.busy = true := (busy_iff s).2 (by rintro hop; rw [hop] at hc; cases hc)
    obtain ⟨hop, -, -, -, -, -, -, hpresent, hpfail, -⟩ := engine_fields (cycleAfter_engine_of_ends hr hb hend)
    rw [hpresent, hpfail]
    exact tickStep_one_outcome hs hc (hop.symm.trans ((busy_eq_false_iff _).1 hend))
  · obtain ⟨-, rfl⟩ := (step_next_iff s t).1 hstep
    cases hb : s.busy with
    | false =>
      right
      have hengine := cycle_engine_idle hr hb
      have hpresent : (cycleAfter s).present = (hostAfter s).present := congrArg Engine.present hengine
      have hpfail : (cycleAfter s).pfail = (hostAfter s).pfail := congrArg Engine.pfail hengine
      rw [hpresent, hpfail] at hne ⊢
      rcases hostAfter_engine_of_idle hr hb with heq | ⟨i, hw, hexec⟩
      · exact absurd hne (not_or.2 ⟨not_not_intro (congrArg Engine.present heq), not_not_intro (congrArg Engine.pfail heq)⟩)
      · obtain ⟨rfl | rfl, hcleared⟩ := exec_changes_outcome hb hexec hne
        · exact ⟨rfl, .inl hw, hcleared⟩
        · exact ⟨rfl, .inr hw, hcleared⟩
    | true =>
      left
      have hengine := cycle_engine hr hb
      split at hengine
      · obtain ⟨hop, -, -, -, -, -, -, hpresent, hpfail, -⟩ := engine_fields hengine
        rw [hpresent, hpfail] at hne
        obtain ⟨⟨hkept, hkept'⟩ | ⟨hph, hidle⟩, -⟩ := tick_results s.sample s
        · exact absurd hne (not_or.2 ⟨not_not_intro hkept, not_not_intro hkept'⟩)
        · exact ⟨rfl, hph, (busy_eq_false_iff _).2 (hop.trans hidle)⟩
      · exact absurd hne
          (not_or.2 ⟨not_not_intro (congrArg Engine.present hengine), not_not_intro (congrArg Engine.pfail hengine)⟩)

end Sys2Proof.Machine
end

section
/-! SUPPORT. Runs: the delay of the synchronizer, the tick grid and the length of a timed phase. -/

namespace Sys2Proof.Machine

/-! ## The delay of the synchronizer (70_reset_and_hazards.md section 3) -/

/-- A level that enters the synchronizer at an edge stands in stage `j` after `j` more edges. -/
theorem cyclesAfter_sync_getD {s : State} (hs : Invariant s) {j : Nat} (hj : j < s.params.syncStages) (hr : ResetFree (j + 1) s) :
    (cyclesAfter (j + 1) s).sync.getD j true = s.dqI := by
  induction j with
  | zero =>
    have hport : s.port.rstN = true := hr.port (Nat.lt_succ_self 0)
    rw [cyclesAfter_succ, cyclesAfter_zero, cycleAfter_sync hport]; rfl
  | succ j ih =>
    have hlen : (cyclesAfter (j + 1) s).sync.length = s.params.syncStages := by
      rw [(hs.cyclesAfter (j + 1)).stages, cyclesAfter_params]
    rw [cyclesAfter_succ, cycleAfter_sync (hr.port (Nat.lt_succ_self _)), getD_cons_dropLast _ _ _ (by omega) (by omega)]
    exact ih (by omega) (hr.mono (by omega))

/-- Settles O11: the level enters stage 0 at the first of the SYNC_STAGES edges and stands in the last stage after them. -/
theorem sampleIsTheLevelSyncStagesEarlier : Obligations.SampleIsTheLevelSyncStagesEarlier := by
  unfold Obligations.SampleIsTheLevelSyncStagesEarlier
  intro s n hs hr
  refine ⟨_, _, runs_cyclesAfter hs.legal n, runs_cyclesAfter hs.legal _, ?_⟩
  have ht := hs.cyclesAfter (n + s.params.syncStages)
  have hu := hs.cyclesAfter n
  obtain ⟨j, hj⟩ := Nat.exists_eq_add_of_le' (Params.legal_stages hs.legal)
  rw [sample_eq _ ht.sync_ne_nil true, ht.stages, cyclesAfter_params, cyclesAfter_add, hj, Nat.add_sub_cancel]
  exact cyclesAfter_sync_getD hu (by rw [cyclesAfter_params]; omega) (by rw [← hj]; exact hr.after)

/-! ## The tick grid (40_engine_timing.md section 5) -/

theorem add_one_mod_eq_ite (n : Nat) {k : Nat} (hk : 1 ≤ k) : (n + 1) % k = if n % k = k - 1 then 0 else n % k + 1 := by
  obtain ⟨k, rfl⟩ := Nat.exists_eq_add_of_le' hk
  rw [Nat.add_sub_cancel]
  split
  next h => exact Nat.succ_mod_succ_eq_zero_iff.2 h
  next h =>
    have hlt := Nat.mod_lt n hk
    rw [← Nat.mod_add_mod, Nat.mod_eq_of_lt (by omega)]

/-- While a command runs from prescaler 0 on, the prescaler counts the cycles modulo CLK_PER_TICK. -/
theorem cyclesAfter_preCnt {s : State} (hl : s.params.legal = true) (hp : s.preCnt = 0) {n : Nat} (hr : ResetFree n s)
    (hb : ∀ m < n, (cyclesAfter m s).busy = true) : (cyclesAfter n s).preCnt = n % s.params.clkPerTick := by
  induction n with
  | zero => rw [cyclesAfter_zero, hp, Nat.zero_mod]
  | succ n ih =>
    have hpre := ih (hr.mono (Nat.le_succ n)) fun m hm => hb m (Nat.lt_succ_of_lt hm)
    have hn := Nat.lt_succ_self n
    rw [cyclesAfter_succ, edge_preCnt (hr.port hn) (hb n hn), add_one_mod_eq_ite n (Params.legal_clk hl)]
    simp only [tick_iff, hpre, cyclesAfter_params]

/-- Settles O56: the prescaler is the cycle's number modulo CLK_PER_TICK, and the tick its last value. -/
theorem tickGridStartsAtAccept : Obligations.TickGridStartsAtAccept := by
  unfold Obligations.TickGridStartsAtAccept
  intro s t n hs hp hr hb hrun
  have hl := hs.legal
  rw [(runs_iff hl n t).1 hrun, tick_iff, cyclesAfter_params,
    cyclesAfter_preCnt hl hp hr fun m hm => hb m _ (Nat.le_of_lt hm) (runs_cyclesAfter hl m), Nat.dvd_iff_mod_eq_zero,
    add_one_mod_eq_ite n (Params.legal_clk hl)]
  simp

/-! ## The length of a timed phase (40_engine_timing.md section 3) -/

/-- Settles O55: a timed phase counts its timer down to 1, once a tick, and nothing else of the engine moves until its end action. -/
theorem timedPhaseLastsItsDuration : Obligations.TimedPhaseLastsItsDuration := by
  unfold Obligations.TimedPhaseLastsItsDuration
  intro s hs ht htimer hp n hr
  have hl := hs.legal
  obtain ⟨j, hj⟩ := Nat.exists_eq_add_of_le' (legal_dur hl ht).1
  have hn : n = (j + 1) * s.params.clkPerTick := by rw [← hj]
  clear_value n
  subst hn
  obtain ⟨hstands, hone, htick, -, hend⟩ :=
    timed_phase (busy_of_timed hs.phase ht) ht hp (Params.legal_clk hl) (htimer.trans hj) hr
  refine ⟨fun m hm => ⟨_, runs_cyclesAfter hl m, ?_⟩, _, _, runs_cyclesAfter hl _, runs_cyclesAfter hl _, hone, htick, hend⟩
  exact ⟨congrArg Engine.op (hstands m hm).1, congrArg Engine.ph (hstands m hm).1⟩

end Sys2Proof.Machine
end

section
/-! SUPPORT. No hang: a bound on the ticks a command has left, which every tick lowers (70_reset_and_hazards.md section 4). -/

namespace Sys2Proof.Machine

/-! ## The ticks left -/

/-- The slots a byte command still has to make after the present one. -/
def slotsLeft (bitcnt : BitVec 3) : Nat := 7 - bitcnt.toNat

theorem slotsLeft_eq_succ : ∀ {bitcnt : BitVec 3}, bitcnt ≠ 7#3 → slotsLeft bitcnt = slotsLeft (bitcnt + 1#3) + 1 := by decide

/-- At least the ticks of the write slot of either bit. -/
def writeSlotBound (p : Params) : Nat := p.tW1l + p.tW1r + p.tW0l + p.tW0r

/-- A bound on the ticks a command makes after the present timed phase. -/
def ticksAfter (p : Params) (bitcnt : BitVec 3) : Phase → Nat
  | .rstHi => p.tRstL + p.tRstR + (p.pWaitMax + p.pLowMax)
  | .rstLo => p.tRstR + (p.pWaitMax + p.pLowMax)
  | .rstRel => p.pWaitMax + p.pLowMax
  | .rdLo => p.tRs + p.tRrec + slotsLeft bitcnt * p.tRslot
  | .rdSmp => p.tRrec + slotsLeft bitcnt * p.tRslot
  | .rdRec => slotsLeft bitcnt * p.tRslot
  | .wr1Lo => p.tW1r + slotsLeft bitcnt * writeSlotBound p
  | .wr0Lo => p.tW0r + slotsLeft bitcnt * writeSlotBound p
  | .wr1Rel | .wr0Rel => slotsLeft bitcnt * writeSlotBound p
  | .none | .prWait | .prLow => 0

/-- A bound on the ticks the engine is still busy in phase `ph`, by the counters. -/
def phaseTicks (p : Params) (timer pcnt : Nat) (bitcnt : BitVec 3) (ph : Phase) : Nat :=
  if timed ph = true then timer + ticksAfter p bitcnt ph
  else if ph = .prWait then p.pWaitMax - pcnt + p.pLowMax
  else if ph = .prLow then p.pLowMax + 1 - pcnt
  else 0

/-- A bound on the ticks the engine is still busy. -/
def State.ticksLeft (s : State) : Nat := phaseTicks s.params s.timer s.pcnt s.bitcnt s.ph

theorem ticksLeft_congr {s t : State} (h : s.engine = t.engine) (hp : s.params = t.params) : s.ticksLeft = t.ticksLeft := by
  obtain ⟨-, hph, htimer, hpcnt, hbitcnt, -⟩ := engine_fields h
  rw [State.ticksLeft, State.ticksLeft, hph, htimer, hpcnt, hbitcnt, hp]

theorem ticksLeft_timed {s : State} (h : timed s.ph = true) : s.ticksLeft = s.timer + ticksAfter s.params s.bitcnt s.ph := if_pos h

theorem ticksLeft_prWait {s : State} (h : s.ph = .prWait) : s.ticksLeft = s.params.pWaitMax - s.pcnt + s.params.pLowMax := by
  rw [State.ticksLeft, h]; rfl

theorem ticksLeft_prLow {s : State} (h : s.ph = .prLow) : s.ticksLeft = s.params.pLowMax + 1 - s.pcnt := by
  rw [State.ticksLeft, h]; rfl

theorem ticksLeft_complete (s : State) : (complete s).ticksLeft = 0 := rfl

theorem ticksLeft_enter {ph : Phase} (h : timed ph = true) (s : State) :
    (enter ph s).ticksLeft = dur s.params ph + ticksAfter s.params s.bitcnt ph := ticksLeft_timed (s := enter ph s) h

/-! ## Every tick lowers them -/

theorem ticksAfter_of_nextPhase {ph ph' : Phase} (h : nextPhase ph = some ph') (p : Params) (bitcnt : BitVec 3) :
    dur p ph' + ticksAfter p bitcnt ph' = ticksAfter p bitcnt ph := by
  cases ph <;> cases h <;> simp only [dur, ticksAfter, Nat.add_assoc]

theorem ticksLeft_readSlotEnd (s : State) : (readSlotEnd s).ticksLeft ≤ slotsLeft s.bitcnt * s.params.tRslot := by
  unfold readSlotEnd
  split
  · exact Nat.zero_le _
  · split
    · exact Nat.zero_le _
    next hbit =>
      rw [ticksLeft_enter rfl, slotsLeft_eq_succ hbit, Nat.succ_mul]
      simp only [dur, ticksAfter, Params.tRslot]
      omega

theorem ticksLeft_enterWriteSlot (b : Bool) (s : State) :
    (enterWriteSlot b s).ticksLeft ≤ (slotsLeft s.bitcnt + 1) * writeSlotBound s.params := by
  rw [Nat.succ_mul]
  cases b
  · rw [enterWriteSlot_false, ticksLeft_enter rfl]; simp only [dur, ticksAfter, writeSlotBound]; omega
  · rw [enterWriteSlot_true, ticksLeft_enter rfl]; simp only [dur, ticksAfter, writeSlotBound]; omega

theorem ticksLeft_writeSlotEnd (s : State) : (writeSlotEnd s).ticksLeft ≤ slotsLeft s.bitcnt * writeSlotBound s.params := by
  unfold writeSlotEnd
  split
  · exact Nat.zero_le _
  next hbit => rw [slotsLeft_eq_succ hbit]; exact ticksLeft_enterWriteSlot _ _

theorem ticksLeft_endPhase (b : Bool) {s : State} (h : timed s.ph = true) :
    (endPhase b s).ticksLeft ≤ ticksAfter s.params s.bitcnt s.ph := by
  cases hnext : nextPhase s.ph with
  | some ph =>
    rw [endPhase_of_nextPhase b hnext, ticksLeft_enter (timed_of_nextPhase hnext).2, ticksAfter_of_nextPhase hnext]
  | none =>
    cases hph : s.ph <;> rw [hph] at h hnext
    case rstRel =>
      rw [endPhase_rstRel b hph, resetSequenceEnd]
      split
      · exact Nat.zero_le _
      · exact Nat.le_refl _
    case rdSmp =>
      rw [endPhase_rdSmp b hph, readSample, ticksLeft_enter rfl]; exact Nat.le_refl _
    case rdRec => rw [endPhase_rdRec b hph]; exact ticksLeft_readSlotEnd s
    case wr1Rel => rw [endPhase_writeRelease b (.inl hph)]; exact ticksLeft_writeSlotEnd s
    case wr0Rel => rw [endPhase_writeRelease b (.inr hph)]; exact ticksLeft_writeSlotEnd s
    case none => cases h
    case prWait => cases h
    case prLow => cases h
    all_goals cases hnext

/-- The phases of a running command (R106). -/
theorem Invariant.ph_of_busy {s : State} (h : Invariant s) (hb : s.busy = true) :
    timed s.ph = true ∨ s.ph = .prWait ∨ s.ph = .prLow := by
  have hphase := h.phase
  have hop := (busy_iff s).1 hb
  revert hphase hop
  cases s.op <;> cases s.ph <;> decide

/-- Every tick of a running command leaves fewer ticks. -/
theorem ticksLeft_tickStep (b : Bool) {s : State} (h : Invariant s) (hb : s.busy = true) : (tickStep b s).ticksLeft < s.ticksLeft := by
  rcases h.ph_of_busy hb with ht | hph | hph
  · obtain ⟨hpos, -⟩ := h.timerRuns ht
    rw [ticksLeft_timed ht]
    by_cases hlast : 1 < s.timer
    · rw [tickStep_count b s ht hlast, ticksLeft_timed (s := { s with timer := s.timer - 1 }) ht]
      show s.timer - 1 + ticksAfter s.params s.bitcnt s.ph < _
      omega
    · rw [tickStep_end b s ht (Nat.not_lt.1 hlast)]
      have := ticksLeft_endPhase b ht
      omega
  · have hpolls := h.polls hph
    rw [tickStep_prWait b s hph, presenceWaitTick, ticksLeft_prWait hph]
    split
    · rw [ticksLeft_prLow (s := { s with ph := .prLow, pcnt := 1 }) rfl]
      show s.params.pLowMax + 1 - 1 < _
      omega
    · split
      · rw [ticksLeft_complete]; omega
      · rw [ticksLeft_prWait (s := { s with pcnt := s.pcnt + 1 }) hph]
        show s.params.pWaitMax - (s.pcnt + 1) + s.params.pLowMax < _
        omega
  · obtain ⟨hone, hmax⟩ := h.lowSamples hph
    rw [tickStep_prLow b s hph, presenceLowTick, ticksLeft_prLow hph]
    split
    · split <;> rw [ticksLeft_complete] <;> omega
    · split
      · rw [ticksLeft_complete]; omega
      · rw [ticksLeft_prLow (s := { s with pcnt := s.pcnt + 1 }) hph]
        show s.params.pLowMax + 1 - (s.pcnt + 1) < _
        omega

/-! ## The bound -/

theorem dur_add_ticksAfter_le (p : Params) (bitcnt : BitVec 3) (ph : Phase) :
    dur p ph + ticksAfter p bitcnt ph ≤ p.commandBound := by
  have hslots : slotsLeft bitcnt ≤ 7 := Nat.sub_le _ _
  have hread := Nat.mul_le_mul_right p.tRslot hslots
  have hwrite := Nat.mul_le_mul_right (writeSlotBound p) hslots
  unfold Params.commandBound
  cases ph <;> simp only [dur, ticksAfter, Params.tRst, Params.tRslot, writeSlotBound] at * <;> omega

theorem Invariant.ticksLeft_le {s : State} (h : Invariant s) : s.ticksLeft ≤ s.params.commandBound := by
  by_cases ht : timed s.ph = true
  · obtain ⟨-, hdur⟩ := h.timerRuns ht
    have hbound := dur_add_ticksAfter_le s.params s.bitcnt s.ph
    rw [ticksLeft_timed ht]
    omega
  · rw [State.ticksLeft, phaseTicks, if_neg ht, Params.commandBound]
    split
    · omega
    · split
      next hph => have := h.lowSamples hph; omega
      next => exact Nat.zero_le _

/-- With at most `n` ticks left the engine is idle within `n` tick periods. -/
theorem idle_within {n : Nat} {s : State} (h : Invariant s) (hn : s.ticksLeft ≤ n) (hr : ResetFree (n * s.params.clkPerTick) s) :
    ∃ m ≤ n * s.params.clkPerTick, (cyclesAfter m s).busy = false := by
  induction n generalizing s with
  | zero =>
    refine ⟨0, Nat.zero_le _, ?_⟩
    by_contra hb
    exact absurd (ticksLeft_tickStep true h (by simpa using hb)) (by omega)
  | succ n ih =>
    cases hb : s.busy with
    | false => exact ⟨0, Nat.zero_le _, hb⟩
    | true =>
      have hpre := h.prescaler
      obtain ⟨d, hd⟩ : ∃ d, s.preCnt + d + 1 = s.params.clkPerTick := ⟨s.params.clkPerTick - 1 - s.preCnt, by omega⟩
      rw [Nat.succ_mul] at hr ⊢
      obtain ⟨hstands, -, -, htick⟩ := next_tick hb hd (hr.mono (by omega))
      have hless : (cyclesAfter (d + 1) s).ticksLeft ≤ n := by
        have hlower := ticksLeft_tickStep (cyclesAfter d s).sample (h.cyclesAfter d) ((busy_of_engine hstands).trans hb)
        rw [ticksLeft_congr hstands (cyclesAfter_params d s)] at hlower
        rw [ticksLeft_congr htick (by rw [tickStep_params, cyclesAfter_params, cyclesAfter_params])]
        omega
      obtain ⟨m, hm, hidle⟩ := ih (h.cyclesAfter (d + 1)) hless
        (by rw [cyclesAfter_params]; exact ResetFree.after (hr.mono (by omega)))
      rw [cyclesAfter_params] at hm
      exact ⟨d + 1 + m, by omega, by rw [cyclesAfter_add]; exact hidle⟩

/-- Settles O57: at most the bound's ticks are left in any state of the invariant, and every tick leaves fewer. -/
theorem everyCommandCompletes : Obligations.EveryCommandCompletes := by
  unfold Obligations.EveryCommandCompletes
  intro s hs n hr
  obtain ⟨m, hm, hidle⟩ := idle_within hs hs.ticksLeft_le hr
  exact ⟨m, _, hm, runs_cyclesAfter hs.legal m, hidle⟩

end Sys2Proof.Machine
end

section
/-! SUPPORT. The timeline of the reset pulse: RESET and RSTPRES from accept on (41_reset_presence.md sections 1 and 2). -/

namespace Sys2Proof.Machine

/-! ## Phases one after the other -/

/-- At the edge that ends cycle `c`, a tick, the engine of a run of `s` becomes `e`. -/
structure EntersAt (s : State) (c : Nat) (e : Engine) : Prop where
  engine : (cyclesAfter (c + 1) s).engine = e
  preCnt : (cyclesAfter (c + 1) s).preCnt = 0

/-- In the cycles after `c` up to `d` the engine of a run of `s` is `e` but for the timer. -/
def StandsIn (s : State) (c d : Nat) (e : Engine) : Prop :=
  ∀ n, c < n → n ≤ d → ∃ j, (cyclesAfter n s).engine = { e with timer := j }

theorem Accepted.entersAt {i : Instr} {s : State} (h : Accepted i s) : EntersAt s 0 (acceptEffect i (accept s)).engine := by
  obtain ⟨-, hengine, hpre⟩ := accepted_first h
  exact ⟨hengine, hpre⟩

/-- A timed phase entered at `c` stands for its duration, and its end action runs in its last cycle. -/
theorem EntersAt.timed_phase {s : State} {c : Nat} {e : Engine} (h : EntersAt s c e) (hl : s.params.legal = true)
    (ht : timed e.ph = true) (hd : e.timer = dur s.params e.ph) (ho : e.op ≠ .idle) {d : Nat}
    (hcd : d = c + dur s.params e.ph * s.params.clkPerTick) (hr : ResetFree (d + 1) s) :
    StandsIn s c d e ∧ (cyclesAfter d s).engine = { e with timer := 1 } ∧
    EntersAt s d (endPhase (cyclesAfter d s).sample (cyclesAfter d s)).engine := by
  obtain ⟨hstands, hpre, -, hlast, hend⟩ := phase_at hl h.engine h.preCnt ht hd ho (N := d + 1) (by omega) hr
  exact ⟨fun n hcn hnd => hstands n hcn (Nat.lt_succ_of_le hnd), hlast, hend, hpre⟩

/-- A timed phase with no other end action is followed by the next one. -/
theorem EntersAt.next_phase {s : State} {c : Nat} {e : Engine} {ph : Phase} (h : EntersAt s c e) (hl : s.params.legal = true)
    (hnext : nextPhase e.ph = some ph) (hd : e.timer = dur s.params e.ph) (ho : e.op ≠ .idle) {d : Nat}
    (hcd : d = c + dur s.params e.ph * s.params.clkPerTick) (hr : ResetFree (d + 1) s) :
    StandsIn s c d e ∧ EntersAt s d { e with ph := ph, timer := dur s.params ph } := by
  obtain ⟨hstands, hlast, hend⟩ := h.timed_phase hl (timed_of_nextPhase hnext).1 hd ho hcd hr
  have hph : (cyclesAfter d s).ph = e.ph := congrArg Engine.ph hlast
  rw [endPhase_of_nextPhase _ (by rw [hph]; exact hnext), enter_engine, hlast, cyclesAfter_params] at hend
  exact ⟨hstands, hend⟩

/-! ## The reset pulse -/

/-- The driver in cycle `n` of the reset pulse (section 1 of 41_reset_presence.md). -/
def pulseDrv (p : Params) (n : Nat) : Drv :=
  if n ≤ p.tRstH * p.clkPerTick then .hi else if n ≤ (p.tRstH + p.tRstL) * p.clkPerTick then .lo else .rel

theorem drv_of_engine {t : State} {e : Engine} (h : t.engine = e) : t.drv = drvOf e.ph := by subst h; rfl

/-- The pulse from RST_HI on: nothing of the engine but the phase and the timer changes until the last cycle of RST_REL. -/
theorem EntersAt.reset_pulse {s : State} {e : Engine} (h : EntersAt s 0 e) (hl : s.params.legal = true) (hph : e.ph = .rstHi)
    (hd : e.timer = s.params.tRstH) (ho : e.op ≠ .idle) (hr : ResetFree (1 + s.params.tRst * s.params.clkPerTick) s) :
    (∀ n, 1 ≤ n → n ≤ s.params.tRst * s.params.clkPerTick →
      ∃ ph j, (cyclesAfter n s).engine = { e with ph := ph, timer := j } ∧ drvOf ph = pulseDrv s.params n) ∧
    (cyclesAfter (s.params.tRst * s.params.clkPerTick) s).engine = { e with ph := .rstRel, timer := 1 } ∧
    EntersAt s (s.params.tRst * s.params.clkPerTick)
      (resetSequenceEnd (cyclesAfter (s.params.tRst * s.params.clkPerTick) s)).engine := by
  have htotal : s.params.tRst * s.params.clkPerTick =
      (s.params.tRstH + s.params.tRstL) * s.params.clkPerTick + s.params.tRstR * s.params.clkPerTick := Nat.add_mul _ _ _
  have hmid := Nat.add_mul s.params.tRstH s.params.tRstL s.params.clkPerTick
  obtain ⟨hhi, h1⟩ := h.next_phase (ph := .rstLo) (d := s.params.tRstH * s.params.clkPerTick) hl (by rw [hph]; rfl)
    (by rw [hph]; exact hd) ho (by rw [hph, dur, Nat.zero_add]) (hr.mono (by omega))
  obtain ⟨hlo, h2⟩ := h1.next_phase (ph := .rstRel) (d := (s.params.tRstH + s.params.tRstL) * s.params.clkPerTick) hl rfl rfl ho
    hmid (hr.mono (by omega))
  obtain ⟨hrel, hlast, h3⟩ := h2.timed_phase hl rfl rfl ho htotal (hr.mono (by omega))
  rw [endPhase_rstRel _ (congrArg Engine.ph hlast)] at h3
  refine ⟨fun n hn hend => ?_, hlast, h3⟩
  unfold pulseDrv
  by_cases h4 : n ≤ s.params.tRstH * s.params.clkPerTick
  · obtain ⟨j, hj⟩ := hhi n hn h4
    exact ⟨_, j, hj, by rw [if_pos h4, hph]; rfl⟩
  · rw [if_neg h4]
    by_cases h5 : n ≤ (s.params.tRstH + s.params.tRstL) * s.params.clkPerTick
    · obtain ⟨j, hj⟩ := hlo n (by omega) h5
      exact ⟨_, j, hj, by rw [if_pos h5]; rfl⟩
    · obtain ⟨j, hj⟩ := hrel n (by omega) hend
      exact ⟨_, j, hj, by rw [if_neg h5]; rfl⟩

/-- Settles O38: the pulse keeps the accept's engine but for phase and timer, and RST_REL of a RESET ends in `complete`. -/
theorem resetPulseTimeline : Obligations.ResetPulseTimeline := by
  unfold Obligations.ResetPulseTimeline
  intro s hacc k p hr
  have hl := hacc.1.legal
  obtain ⟨hpulse, hlast, hend⟩ := hacc.entersAt.reset_pulse hl rfl rfl nofun hr
  refine ⟨fun n hn hle => ⟨_, runs_cyclesAfter hl n, ?_⟩, _, runs_cyclesAfter hl _, ?_⟩
  · obtain ⟨ph, j, hengine, hdrv⟩ := hpulse n hn hle
    exact ⟨busy_of hengine nofun, congrArg Engine.done hengine, (drv_of_engine hengine).trans hdrv⟩
  · have hengine := hend.engine
    rw [resetSequenceEnd_reset (congrArg Engine.op hlast), complete_engine, hlast, Nat.add_comm] at hengine
    exact ⟨(busy_eq_false_iff _).2 (congrArg Engine.op hengine), congrArg Engine.done hengine, drv_of_engine hengine,
      congrArg Engine.present hengine, congrArg Engine.pfail hengine, congrArg Engine.rbit hengine,
      congrArg Engine.rxdata hengine, congrArg Engine.crc hengine⟩

/-- Settles O39: the same pulse, from an accept that clears the outcome, and RST_REL of an RSTPRES ends in `startPresence`. -/
theorem rstpresStartsPresenceAfterThePulse : Obligations.RstpresStartsPresenceAfterThePulse := by
  unfold Obligations.RstpresStartsPresenceAfterThePulse
  intro s hacc k p hr
  have hl := hacc.1.legal
  obtain ⟨hpulse, hlast, hend⟩ := hacc.entersAt.reset_pulse hl rfl rfl nofun hr
  refine ⟨fun n hn hle => ⟨_, runs_cyclesAfter hl n, ?_⟩, _, runs_cyclesAfter hl _, ?_⟩
  · obtain ⟨ph, j, hengine, hdrv⟩ := hpulse n hn hle
    exact ⟨busy_of hengine nofun, congrArg Engine.done hengine, congrArg Engine.present hengine, congrArg Engine.pfail hengine,
      (drv_of_engine hengine).trans hdrv⟩
  · have hengine := hend.engine
    have hpre := hend.preCnt
    rw [resetSequenceEnd_rstpres (congrArg Engine.op hlast), startPresence_engine, hlast] at hengine
    rw [Nat.add_comm] at hengine hpre
    exact ⟨congrArg Engine.op hengine, congrArg Engine.ph hengine, congrArg Engine.pcnt hengine, hpre, congrArg Engine.done hengine,
      congrArg Engine.present hengine, congrArg Engine.pfail hengine⟩

end Sys2Proof.Machine
end

section
/-! SUPPORT. The timelines of READ_BIT and READ_BYTE, slot by slot (42_bit_byte.md section 1). -/

namespace Sys2Proof.Machine

/-! ## One read slot -/

/-- The sample of the read slot that is entered at `c`: T_RL + T_RS ticks later. -/
def slotSample (s : State) (c : Nat) : Bool := (cyclesAfter (c + (s.params.tRl + s.params.tRs) * s.params.clkPerTick) s).sample

/-- The shift register after a read slot with sample `b` (R151). -/
def shiftedBy (b : Bool) (e : Engine) : Byte := if e.op = .readByte then shiftIn b e.shreg else e.shreg

theorem readSample_engine_eq (b : Bool) (s : State) :
    (readSample b s).engine =
      { s.engine with ph := .rdRec, timer := s.params.tRrec, rbit := b, shreg := shiftedBy b s.engine } := rfl

/-- In the cycles of the read slot entered at `c` only the phase, the timer, RBIT and the shift register differ from `e`, and the
line is low for T_RL. -/
def InReadSlot (s : State) (c : Nat) (e : Engine) : Prop :=
  ∀ m, 1 ≤ m → m ≤ s.params.tRslot * s.params.clkPerTick →
    ∃ ph j b v, (cyclesAfter (c + m) s).engine = { e with ph := ph, timer := j, rbit := b, shreg := v } ∧
      drvOf ph = if m ≤ s.params.tRl * s.params.clkPerTick then .lo else .rel

/-- A read slot from RD_LO on: its cycles, its last one, and its end. -/
theorem EntersAt.read_slot {s : State} {c : Nat} {e : Engine} (h : EntersAt s c e) (hl : s.params.legal = true) (hph : e.ph = .rdLo)
    (hd : e.timer = s.params.tRl) (ho : e.op ≠ .idle) {d : Nat} (hcd : d = c + s.params.tRslot * s.params.clkPerTick)
    (hr : ResetFree (d + 1) s) :
    InReadSlot s c e ∧
    (cyclesAfter d s).engine =
      { e with ph := .rdRec, timer := 1, rbit := slotSample s c, shreg := shiftedBy (slotSample s c) e } ∧
    EntersAt s d (readSlotEnd (cyclesAfter d s)).engine := by
  have htotal : s.params.tRslot * s.params.clkPerTick =
      (s.params.tRl + s.params.tRs) * s.params.clkPerTick + s.params.tRrec * s.params.clkPerTick := Nat.add_mul _ _ _
  have hmid := Nat.add_mul s.params.tRl s.params.tRs s.params.clkPerTick
  obtain ⟨hlo, h1⟩ := h.next_phase (ph := .rdSmp) (d := c + s.params.tRl * s.params.clkPerTick) hl (by rw [hph]; rfl)
    (by rw [hph]; exact hd) ho (by rw [hph]; rfl) (hr.mono (by omega))
  obtain ⟨hsmp, hsampled, h2⟩ := h1.timed_phase (d := c + (s.params.tRl + s.params.tRs) * s.params.clkPerTick) hl rfl rfl ho
    (by rw [hmid, ← Nat.add_assoc]; rfl) (hr.mono (by omega))
  rw [endPhase_rdSmp _ (congrArg Engine.ph hsampled), readSample_engine_eq, hsampled, cyclesAfter_params] at h2
  obtain ⟨hrec, hlast, h3⟩ := h2.timed_phase (d := d) hl rfl rfl ho (by rw [hcd, htotal, ← Nat.add_assoc]; rfl) hr
  rw [endPhase_rdRec _ (congrArg Engine.ph hlast)] at h3
  refine ⟨fun m h1m hm => ?_, hlast, h3⟩
  by_cases h4 : m ≤ s.params.tRl * s.params.clkPerTick
  · obtain ⟨j, hj⟩ := hlo (c + m) (by omega) (by omega)
    exact ⟨_, j, _, _, hj, by rw [if_pos h4, hph]; rfl⟩
  · rw [if_neg h4]
    by_cases h5 : m ≤ (s.params.tRl + s.params.tRs) * s.params.clkPerTick
    · obtain ⟨j, hj⟩ := hsmp (c + m) (by omega) (by omega)
      exact ⟨_, j, _, _, hj, rfl⟩
    · obtain ⟨j, hj⟩ := hrec (c + m) (by omega) (by omega)
      exact ⟨_, j, _, _, hj, rfl⟩

/-- Settles O44: READ_BIT is one read slot, whose end completes it. -/
theorem readBitTimeline : Obligations.ReadBitTimeline := by
  unfold Obligations.ReadBitTimeline
  intro s hacc k p hr
  have hl := hacc.1.legal
  obtain ⟨hslot, hlast, hend⟩ :=
    hacc.entersAt.read_slot hl rfl rfl nofun (Nat.zero_add _).symm (hr.mono (Nat.le_of_eq (Nat.add_comm _ _)))
  refine ⟨fun n hn hle => ⟨_, runs_cyclesAfter hl n, ?_⟩, _, _, runs_cyclesAfter hl _, runs_cyclesAfter hl _, ?_⟩
  · obtain ⟨ph, j, b, v, hengine, hdrv⟩ := hslot n hn hle
    rw [Nat.zero_add] at hengine
    exact ⟨busy_of hengine nofun, (drv_of_engine hengine).trans hdrv⟩
  · have hengine := hend.engine
    rw [readSlotEnd_readBit (congrArg Engine.op hlast), complete_engine, hlast, Nat.add_comm] at hengine
    have hrbit := congrArg Engine.rbit hengine
    rw [slotSample, Nat.zero_add] at hrbit
    exact ⟨(busy_eq_false_iff _).2 (congrArg Engine.op hengine), congrArg Engine.done hengine, hrbit,
      congrArg Engine.rxdata hengine, congrArg Engine.crc hengine, congrArg Engine.shreg hengine,
      congrArg Engine.present hengine, congrArg Engine.pfail hengine⟩

/-! ## Eight read slots -/

/-- The cycle at whose edge slot `i` of a READ_BYTE is entered. -/
def readSlotAt (s : State) (i : Nat) : Nat := i * s.params.tRslot * s.params.clkPerTick

theorem readSlotAt_succ (s : State) (i : Nat) :
    readSlotAt s (i + 1) = readSlotAt s i + s.params.tRslot * s.params.clkPerTick := by
  simp only [readSlotAt, Nat.add_mul, Nat.one_mul]

theorem readSlotAt_le (s : State) {i j : Nat} (h : i ≤ j) : readSlotAt s i ≤ readSlotAt s j :=
  Nat.mul_le_mul_right _ (Nat.mul_le_mul_right _ h)

theorem sampleAt_slotSample {s : State} (hl : s.params.legal = true) (i : Nat) :
    SampleAt ((i * s.params.tRslot + s.params.tRl + s.params.tRs) * s.params.clkPerTick) s (slotSample s (readSlotAt s i)) := by
  refine ⟨_, runs_cyclesAfter hl _, ?_⟩
  rw [slotSample, readSlotAt, Nat.add_assoc, Nat.add_mul]

/-- The top `i` bits of `v` are the samples of the slots 0 to `i - 1`, the first slot lowest. -/
def Received (s : State) (i : Nat) (v : Byte) : Prop := ∀ j < i, v.getLsbD (8 - i + j) = slotSample s (readSlotAt s j)

theorem Received.shiftIn {s : State} {i : Nat} {v : Byte} (h : Received s i v) (hi : i < 8) :
    Received s (i + 1) (shiftIn (slotSample s (readSlotAt s i)) v) := by
  intro j hj
  by_cases hji : j = i
  · have htop : 8 - (i + 1) + j = 7 := by omega
    rw [htop, shiftIn_getLsbD_seven, hji]
  · rw [shiftIn_getLsbD_of_lt _ _ (by omega), ← h j (by omega)]
    congr 1
    omega

theorem bitcnt_ne_seven {i : Nat} (hi : i < 7) : BitVec.ofNat 3 i ≠ 7#3 := by
  rw [Ne, ← BitVec.toNat_inj, BitVec.toNat_ofNat, BitVec.toNat_ofNat]
  omega

theorem bitcnt_add_one (i : Nat) : BitVec.ofNat 3 i + 1#3 = BitVec.ofNat 3 (i + 1) := BitVec.ofNat_add_ofNat i 1

theorem readSlotEnd_next_engine {s : State} (h : s.op = .readByte) (hbit : s.bitcnt ≠ 7#3) :
    (readSlotEnd s).engine =
      { s.engine with bitcnt := s.engine.bitcnt + 1#3, ph := .rdLo, timer := s.params.tRl } := by
  rw [readSlotEnd_next h hbit]; rfl

/-- The engine that enters slot `i` of a READ_BYTE accepted in state `s`. -/
def readByteEngine (s : State) (i : Nat) (b : Bool) (v : Byte) : Engine :=
  { (acceptEffect .readByte (accept s)).engine with bitcnt := BitVec.ofNat 3 i, rbit := b, shreg := v }

/-- Slot `i` of a READ_BYTE is entered with the samples so far in the shift register. -/
theorem Accepted.read_slots {s : State} (h : Accepted .readByte s) {i : Nat} (hi : i < 8) (hr : ResetFree (readSlotAt s i + 1) s) :
    ∃ b v, EntersAt s (readSlotAt s i) (readByteEngine s i b v) ∧ Received s i v := by
  have hl := h.1.legal
  induction i with
  | zero =>
    have h0 : readSlotAt s 0 = 0 := by simp only [readSlotAt, Nat.zero_mul]
    rw [h0]
    exact ⟨_, _, h.entersAt, nofun⟩
  | succ i ih =>
    have hle : readSlotAt s i ≤ readSlotAt s (i + 1) := readSlotAt_le s (Nat.le_succ i)
    obtain ⟨b, v, henters, hreceived⟩ := ih (by omega) (hr.mono (by omega))
    obtain ⟨-, hlast, hend⟩ := henters.read_slot hl rfl rfl nofun (readSlotAt_succ s i) hr
    have hbit : (cyclesAfter (readSlotAt s (i + 1)) s).bitcnt = BitVec.ofNat 3 i := congrArg Engine.bitcnt hlast
    rw [readSlotEnd_next_engine (congrArg Engine.op hlast) (by rw [hbit]; exact bitcnt_ne_seven (by omega)), hlast,
      cyclesAfter_params] at hend
    refine ⟨slotSample s (readSlotAt s i), _, ?_, hreceived.shiftIn (by omega)⟩
    rw [readByteEngine, ← bitcnt_add_one]
    exact hend

/-- Settles O45: each slot takes its sample in at bit 7, and the eighth ends in `readByteDone`. -/
theorem readByteTimeline : Obligations.ReadByteTimeline := by
  unfold Obligations.ReadByteTimeline
  intro s hacc k p hr
  have hl := hacc.1.legal
  have h8 : 8 * p.tRslot * k = readSlotAt s 8 := rfl
  rw [h8, Nat.add_comm] at hr
  refine ⟨fun i m hi h1m hm => ⟨_, runs_cyclesAfter hl _, ?_⟩, _, _, runs_cyclesAfter hl _, runs_cyclesAfter hl _, ?_⟩
  · have hle : readSlotAt s i ≤ readSlotAt s 8 := readSlotAt_le s (Nat.le_of_lt hi)
    have hle' : readSlotAt s (i + 1) ≤ readSlotAt s 8 := readSlotAt_le s (Nat.succ_le_of_lt hi)
    obtain ⟨b, v, henters, -⟩ := hacc.read_slots hi (hr.mono (Nat.succ_le_succ hle))
    obtain ⟨hslot, -, -⟩ := henters.read_slot hl rfl rfl nofun (readSlotAt_succ s i) (hr.mono (Nat.succ_le_succ hle'))
    obtain ⟨ph, j, b', v', hengine, hdrv⟩ := hslot m h1m hm
    exact ⟨busy_of hengine nofun, congrArg Engine.rxdata hengine, congrArg Engine.crc hengine,
      (drv_of_engine hengine).trans hdrv⟩
  · have hle : readSlotAt s 7 ≤ readSlotAt s 8 := readSlotAt_le s (Nat.le_succ 7)
    obtain ⟨b, v, henters, hreceived⟩ := hacc.read_slots (i := 7) (by omega) (hr.mono (Nat.succ_le_succ hle))
    obtain ⟨-, hlast, hend⟩ := henters.read_slot hl rfl rfl nofun (readSlotAt_succ s 7) hr
    have hbyte := hreceived.shiftIn (by omega)
    have hshreg : (cyclesAfter (readSlotAt s 8) s).shreg = shiftIn (slotSample s (readSlotAt s 7)) v :=
      congrArg Engine.shreg hlast
    have hcrc : (cyclesAfter (readSlotAt s 8) s).crc = s.crc := congrArg Engine.crc hlast
    have hengine := hend.engine
    rw [readSlotEnd_last (congrArg Engine.op hlast) (congrArg Engine.bitcnt hlast), readByteDone_engine, hlast, hshreg,
      hcrc] at hengine
    rw [h8, Nat.add_comm 1]
    have hrx : (cyclesAfter (readSlotAt s 8 + 1) s).rxdata = shiftIn (slotSample s (readSlotAt s 7)) v :=
      congrArg Engine.rxdata hengine
    rw [hrx]
    refine ⟨(busy_eq_false_iff _).2 (congrArg Engine.op hengine), congrArg Engine.done hengine, fun i hi => ?_, ?_,
      congrArg Engine.crc hengine, congrArg Engine.present hengine, congrArg Engine.pfail hengine⟩
    · have hbit := hbyte i hi
      rw [Nat.sub_self, Nat.zero_add] at hbit
      rw [hbit]
      exact sampleAt_slotSample hl i
    · rw [shiftIn_getLsbD_seven]; exact congrArg Engine.rbit hengine

end Sys2Proof.Machine
end

section
/-! SUPPORT. The timeline of WRITE_BYTE, slot by slot (42_bit_byte.md section 2). -/

namespace Sys2Proof.Machine

/-! ## One write slot -/

/-- The low phase of the write slot of bit `b`. -/
def lowPhase (b : Bool) : Phase := if b then .wr1Lo else .wr0Lo

/-- The release phase of the write slot of bit `b`. -/
def releasePhase (b : Bool) : Phase := if b then .wr1Rel else .wr0Rel

theorem nextPhase_lowPhase (b : Bool) : nextPhase (lowPhase b) = some (releasePhase b) := by cases b <;> rfl

theorem timed_releasePhase (b : Bool) : timed (releasePhase b) = true := by cases b <;> rfl

theorem releasePhase_eq (b : Bool) : releasePhase b = .wr1Rel ∨ releasePhase b = .wr0Rel := by
  cases b
  · exact .inr rfl
  · exact .inl rfl

theorem drvOf_lowPhase (b : Bool) : drvOf (lowPhase b) = .lo := by cases b <;> rfl

theorem drvOf_releasePhase (b : Bool) : drvOf (releasePhase b) = .rel := by cases b <;> rfl

theorem dur_lowPhase (p : Params) (b : Bool) : dur p (lowPhase b) = p.lowTicks b := by cases b <;> rfl

theorem lowTicks_add_dur_releasePhase (p : Params) (b : Bool) : p.lowTicks b + dur p (releasePhase b) = p.writeSlot b := by
  cases b <;> rfl

theorem enterWriteSlot_eq (b : Bool) (s : State) : enterWriteSlot b s = enter (lowPhase b) s := by cases b <;> rfl

/-- A write slot of bit `b` from its low phase on: its cycles, its last one, and its end. -/
theorem EntersAt.write_slot {s : State} {c : Nat} {e : Engine} {b : Bool} (h : EntersAt s c e) (hl : s.params.legal = true)
    (hph : e.ph = lowPhase b) (hd : e.timer = s.params.lowTicks b) (ho : e.op ≠ .idle) {d : Nat}
    (hcd : d = c + s.params.writeSlot b * s.params.clkPerTick) (hr : ResetFree (d + 1) s) :
    (∀ n, c < n → n ≤ d → ∃ ph j, (cyclesAfter n s).engine = { e with ph := ph, timer := j } ∧
      drvOf ph = if n ≤ c + s.params.lowTicks b * s.params.clkPerTick then .lo else .rel) ∧
    (cyclesAfter d s).engine = { e with ph := releasePhase b, timer := 1 } ∧
    EntersAt s d (writeSlotEnd (cyclesAfter d s)).engine := by
  rw [← lowTicks_add_dur_releasePhase, Nat.add_mul] at hcd
  obtain ⟨hlo, h1⟩ := h.next_phase (d := c + s.params.lowTicks b * s.params.clkPerTick) hl
    (by rw [hph]; exact nextPhase_lowPhase b) (by rw [hph, dur_lowPhase]; exact hd) ho (by rw [hph, dur_lowPhase])
    (hr.mono (by omega))
  obtain ⟨hrel, hlast, h2⟩ := h1.timed_phase hl (timed_releasePhase b) rfl ho (by rw [hcd, Nat.add_assoc]) hr
  have hrelease : (cyclesAfter d s).ph = releasePhase b := congrArg Engine.ph hlast
  rw [endPhase_writeRelease _ (hrelease ▸ releasePhase_eq b)] at h2
  refine ⟨fun n hcn hnd => ?_, hlast, h2⟩
  by_cases h3 : n ≤ c + s.params.lowTicks b * s.params.clkPerTick
  · obtain ⟨j, hj⟩ := hlo n hcn h3
    exact ⟨_, j, hj, by rw [if_pos h3, hph]; exact drvOf_lowPhase b⟩
  · obtain ⟨j, hj⟩ := hrel n (by omega) hnd
    exact ⟨_, j, hj, by rw [if_neg h3]; exact drvOf_releasePhase b⟩

/-! ## Eight write slots -/

/-- The cycle at whose edge slot `i` of a WRITE_BYTE is entered. -/
def writeSlotAt (s : State) (i : Nat) : Nat := s.params.slotStart s.txdata i * s.params.clkPerTick

theorem writeSlotAt_succ (s : State) (i : Nat) :
    writeSlotAt s (i + 1) = writeSlotAt s i + s.params.writeSlot (s.txdata.getLsbD i) * s.params.clkPerTick := Nat.add_mul _ _ _

theorem writeSlotAt_le (s : State) {i j : Nat} (h : i ≤ j) : writeSlotAt s i ≤ writeSlotAt s j :=
  monotone_nat_of_le_succ (fun i => writeSlotAt_succ s i ▸ Nat.le_add_right _ _) h

/-- The engine that enters slot `i` of a WRITE_BYTE accepted in state `s`: the bits still to send from bit 0 of `shreg` on. -/
def writeByteEngine (s : State) (i : Nat) : Engine :=
  { (accept s).engine with
    op := .writeByte, bitcnt := BitVec.ofNat 3 i, shreg := s.txdata >>> i, ph := lowPhase (s.txdata.getLsbD i),
    timer := s.params.lowTicks (s.txdata.getLsbD i) }

theorem writeSlotEnd_next_engine {s : State} (hbit : s.bitcnt ≠ 7#3) :
    (writeSlotEnd s).engine = { s.engine with
      bitcnt := s.engine.bitcnt + 1#3, shreg := s.engine.shreg >>> 1, ph := lowPhase (s.engine.shreg.getLsbD 1),
      timer := s.params.lowTicks (s.engine.shreg.getLsbD 1) } := by
  rw [writeSlotEnd_next hbit, enterWriteSlot_eq, enter_engine, dur_lowPhase]; rfl

/-- Slot `i` of a WRITE_BYTE is entered with the bits sent so far shifted out. -/
theorem Accepted.write_slots {s : State} (h : Accepted .writeByte s) {i : Nat} (hi : i < 8)
    (hr : ResetFree (writeSlotAt s i + 1) s) : EntersAt s (writeSlotAt s i) (writeByteEngine s i) := by
  have hl := h.1.legal
  induction i with
  | zero =>
    have h0 : writeSlotAt s 0 = 0 := Nat.zero_mul _
    have haccept : (acceptEffect .writeByte (accept s)).engine = writeByteEngine s 0 := by
      show (enterWriteSlot (s.txdata.getLsbD 0) _).engine = _
      rw [enterWriteSlot_eq, enter_engine, dur_lowPhase]; rfl
    rw [h0, ← haccept]
    exact h.entersAt
  | succ i ih =>
    have hle : writeSlotAt s i ≤ writeSlotAt s (i + 1) := writeSlotAt_le s (Nat.le_succ i)
    have henters := ih (by omega) (hr.mono (Nat.succ_le_succ hle))
    obtain ⟨-, hlast, hend⟩ := henters.write_slot hl rfl rfl nofun (writeSlotAt_succ s i) hr
    have hbit : (cyclesAfter (writeSlotAt s (i + 1)) s).bitcnt = BitVec.ofNat 3 i := congrArg Engine.bitcnt hlast
    have hnext : (s.txdata >>> i).getLsbD 1 = s.txdata.getLsbD (i + 1) := BitVec.getLsbD_ushiftRight _ _ _
    rw [writeSlotEnd_next_engine (by rw [hbit]; exact bitcnt_ne_seven (by omega)), hlast, cyclesAfter_params] at hend
    simp only [writeByteEngine, hnext, bitcnt_add_one, ← BitVec.shiftRight_add] at hend
    exact hend

/-- Settles O46: each slot sends bit 0 of `shreg` and shifts it out, and the eighth ends in `complete`. -/
theorem writeByteTimeline : Obligations.WriteByteTimeline := by
  unfold Obligations.WriteByteTimeline
  intro s hacc k p d hr
  have hl := hacc.1.legal
  have h8 : p.slotStart d 8 * k = writeSlotAt s 8 := rfl
  rw [h8, Nat.add_comm] at hr
  refine ⟨fun i n hi hn hle => ⟨_, runs_cyclesAfter hl _, ?_⟩, _, runs_cyclesAfter hl _, ?_⟩
  · have hstart : writeSlotAt s i ≤ writeSlotAt s 8 := writeSlotAt_le s (Nat.le_of_lt hi)
    have hend : writeSlotAt s (i + 1) ≤ writeSlotAt s 8 := writeSlotAt_le s (Nat.succ_le_of_lt hi)
    obtain ⟨hslot, -, -⟩ := (hacc.write_slots hi (hr.mono (Nat.succ_le_succ hstart))).write_slot hl rfl rfl nofun
      (writeSlotAt_succ s i) (hr.mono (Nat.succ_le_succ hend))
    obtain ⟨ph, j, hengine, hdrv⟩ := hslot n hn hle
    rw [Nat.add_mul]
    exact ⟨busy_of hengine nofun, (drv_of_engine hengine).trans hdrv⟩
  · have hstart : writeSlotAt s 7 ≤ writeSlotAt s 8 := writeSlotAt_le s (Nat.le_succ 7)
    obtain ⟨-, hlast, hend⟩ := (hacc.write_slots (i := 7) (by omega) (hr.mono (Nat.succ_le_succ hstart))).write_slot hl rfl rfl
      nofun (writeSlotAt_succ s 7) hr
    have hengine := hend.engine
    rw [writeSlotEnd_last (congrArg Engine.bitcnt hlast), complete_engine, hlast] at hengine
    rw [h8, Nat.add_comm 1]
    exact ⟨(busy_eq_false_iff _).2 (congrArg Engine.op hengine), congrArg Engine.done hengine, congrArg Engine.shreg hengine,
      congrArg Engine.rbit hengine, congrArg Engine.rxdata hengine, congrArg Engine.crc hengine,
      congrArg Engine.present hengine, congrArg Engine.pfail hengine⟩

end Sys2Proof.Machine
end

section
/-! SUPPORT. The outcome of a presence check as a function of its samples (41_reset_presence.md section 3). -/

namespace Sys2Proof.Machine

theorem sampleAt_iff {s : State} (hl : s.params.legal = true) (n : Nat) (b : Bool) :
    SampleAt n s b ↔ (cyclesAfter n s).sample = b := by
  constructor
  · rintro ⟨u, hrun, hsample⟩
    rw [← (runs_iff hl n u).1 hrun]
    exact hsample
  · exact fun h => ⟨_, runs_cyclesAfter hl n, h⟩

/-! ## Polls -/

/-- After `j` tick periods from `s` a tick has just been made and the engine is `e`. -/
structure AfterPolls (s : State) (j : Nat) (e : Engine) : Prop where
  engine : (cyclesAfter (j * s.params.clkPerTick) s).engine = e
  preCnt : (cyclesAfter (j * s.params.clkPerTick) s).preCnt = 0

/-- None of the next `n` tick periods holds the block in reset. -/
def PollsFree (n : Nat) (s : State) : Prop := ResetFree (n * s.params.clkPerTick) s

/-- One tick period of a running command: the tick is made on the same engine, with the period's last sample. -/
theorem AfterPolls.poll {s : State} {j : Nat} {e : Engine} (h : AfterPolls s j e) (hl : s.params.legal = true) (ho : e.op ≠ .idle)
    (hr : PollsFree (j + 1) s) {b : Bool} (hb : SampleAt ((j + 1) * s.params.clkPerTick - 1) s b) :
    ∃ u : State, u.engine = e ∧ u.params = s.params ∧ AfterPolls s (j + 1) (tickStep b u).engine := by
  obtain ⟨d, hd⟩ := Nat.exists_eq_add_of_le' (Params.legal_clk hl)
  have hnext : (j + 1) * s.params.clkPerTick = j * s.params.clkPerTick + (d + 1) := by rw [Nat.succ_mul, hd]
  have hlast : (j + 1) * s.params.clkPerTick - 1 = j * s.params.clkPerTick + d := by omega
  rw [hlast, sampleAt_iff hl, cyclesAfter_add] at hb
  have hfree : ResetFree (d + 1) (cyclesAfter (j * s.params.clkPerTick) s) :=
    ResetFree.after (hr.mono (Nat.le_of_eq hnext.symm))
  obtain ⟨hstands, -, hpre, htick⟩ := next_tick (busy_of h.engine ho) (d := d)
    (by rw [h.preCnt, cyclesAfter_params, hd, Nat.zero_add]) hfree
  rw [hb] at htick
  refine ⟨cyclesAfter d (cyclesAfter (j * s.params.clkPerTick) s), hstands.trans h.engine, by simp, ?_, ?_⟩
  · rw [hnext, cyclesAfter_add]; exact htick
  · rw [hnext, cyclesAfter_add]; exact hpre

/-! ## A presence part -/

/-- The engine of a presence part that starts in `s`, in phase `ph` with `n` polls or low samples counted. -/
def presenceEngine (s : State) (ph : Phase) (n : Nat) : Engine := { s.engine with ph := ph, pcnt := n }

/-- `s` is a state of the invariant in which a presence part starts. -/
structure PresenceStart (s : State) : Prop where
  invariant : Invariant s
  ph : s.ph = .prWait
  pcnt : s.pcnt = 0
  preCnt : s.preCnt = 0

theorem PresenceStart.checks {s : State} (h : PresenceStart s) : checksPresence s.op = true := by
  have hphase := h.invariant.phase
  rw [h.ph] at hphase
  revert hphase
  cases s.op <;> decide

theorem PresenceStart.op_ne {s : State} (h : PresenceStart s) : s.op ≠ .idle := by
  intro hop
  have hc := h.checks
  rw [hop] at hc
  cases hc

/-- The samples so far high: the wait goes on. -/
theorem PresenceStart.waits {s : State} (h : PresenceStart s) {j : Nat} (hj : j < s.params.pWaitMax) (hr : PollsFree j s)
    (hhigh : ∀ i, 1 ≤ i → i ≤ j → SampleAt (i * s.params.clkPerTick - 1) s true) :
    AfterPolls s j (presenceEngine s .prWait j) := by
  induction j with
  | zero =>
    have he : s.engine = presenceEngine s .prWait 0 := by
      rw [presenceEngine, ← h.ph, ← h.pcnt]; rfl
    exact ⟨by rw [Nat.zero_mul]; exact he, by rw [Nat.zero_mul]; exact h.preCnt⟩
  | succ j ih =>
    have hfree : PollsFree j s := hr.mono (Nat.mul_le_mul_right _ (Nat.le_succ j))
    obtain ⟨u, hu, hup, hpoll⟩ := (ih (by omega) hfree fun i h1 h2 => hhigh i h1 (by omega)).poll h.invariant.legal h.op_ne hr
      (hhigh (j + 1) (by omega) (Nat.le_refl _))
    have hph : u.ph = .prWait := congrArg Engine.ph hu
    have hpcnt : u.pcnt = j := congrArg Engine.pcnt hu
    have hcounted : (tickStep true u).engine = presenceEngine s .prWait (j + 1) := by
      rw [tickStep_prWait _ u hph, presenceWaitTick_high_early (by rw [hpcnt, hup]; exact hj)]
      show ({ u.engine with pcnt := u.pcnt + 1 } : Engine) = _
      rw [hu, hpcnt]; rfl
    exact hcounted ▸ hpoll

/-- The samples of a low pulse from poll `f` on are counted up to P_LOW_MAX. -/
theorem PresenceStart.counts {s : State} (h : PresenceStart s) {f l : Nat} (hf : f < s.params.pWaitMax) (hl : l < s.params.pLowMax)
    (hr : PollsFree (f + 1 + l) s) (hhigh : ∀ i, 1 ≤ i → i ≤ f → SampleAt (i * s.params.clkPerTick - 1) s true)
    (hlow : ∀ i, f < i → i ≤ f + 1 + l → SampleAt (i * s.params.clkPerTick - 1) s false) :
    AfterPolls s (f + 1 + l) (presenceEngine s .prLow (l + 1)) := by
  induction l with
  | zero =>
    have hfree : PollsFree f s := hr.mono (Nat.mul_le_mul_right _ (by omega))
    obtain ⟨u, hu, -, hpoll⟩ := (h.waits hf hfree hhigh).poll h.invariant.legal h.op_ne hr
      (hlow (f + 1) (by omega) (by omega))
    have hfall : (tickStep false u).engine = presenceEngine s .prLow 1 := by
      rw [tickStep_prWait _ u (congrArg Engine.ph hu), presenceWaitTick_low]
      show ({ u.engine with ph := .prLow, pcnt := 1 } : Engine) = _
      rw [hu]; rfl
    exact hfall ▸ hpoll
  | succ l ih =>
    have hfree : PollsFree (f + 1 + l) s := hr.mono (Nat.mul_le_mul_right _ (by omega))
    obtain ⟨u, hu, hup, hpoll⟩ := (ih (by omega) hfree fun i h1 h2 => hlow i h1 (by omega)).poll h.invariant.legal h.op_ne hr
      (hlow (f + 1 + l + 1) (by omega) (by omega))
    have hpcnt : u.pcnt = l + 1 := congrArg Engine.pcnt hu
    have hcounted : (tickStep false u).engine = presenceEngine s .prLow (l + 1 + 1) := by
      rw [tickStep_prLow _ u (congrArg Engine.ph hu), presenceLowTick_low_counted (by rw [hpcnt, hup]; exact hl)]
      show ({ u.engine with pcnt := u.pcnt + 1 } : Engine) = _
      rw [hu, hpcnt]; rfl
    exact hcounted ▸ hpoll

/-! ## The poll that ends it -/

theorem AfterPolls.completed {s u : State} {n : Nat} (h : AfterPolls s n (complete u).engine) (hl : s.params.legal = true)
    {present : Bool} {pfail : PFail} (hpresent : u.present = present) (hpfail : u.pfail = pfail) :
    ∃ t, Runs (n * s.params.clkPerTick) s t ∧ t.busy = false ∧ t.done = true ∧ t.present = present ∧ t.pfail = pfail :=
  ⟨_, runs_cyclesAfter hl _, (busy_eq_false_iff _).2 (congrArg Engine.op h.engine), congrArg Engine.done h.engine,
    (congrArg Engine.present h.engine).trans hpresent, (congrArg Engine.pfail h.engine).trans hpfail⟩

/-- With every sample of the wait high the check ends at poll P_WAIT_MAX with NOFALL. -/
theorem PresenceStart.ends_nofall {s : State} (h : PresenceStart s) (hr : PollsFree s.params.pWaitMax s)
    (hhigh : ∀ i, 1 ≤ i → i ≤ s.params.pWaitMax → SampleAt (i * s.params.clkPerTick - 1) s true) :
    ∃ t, Runs (s.params.pWaitMax * s.params.clkPerTick) s t ∧ t.busy = false ∧ t.done = true ∧ t.present = false ∧
      t.pfail = .nofall := by
  have hl := h.invariant.legal
  obtain ⟨-, ⟨-, hwait, -⟩, -⟩ := (Params.legal_iff _).1 hl
  obtain ⟨w, hw⟩ := Nat.exists_eq_add_of_le' hwait
  rw [hw] at hr hhigh ⊢
  have hfree : PollsFree w s := hr.mono (Nat.mul_le_mul_right _ (Nat.le_succ w))
  obtain ⟨u, hu, hup, hpoll⟩ := (h.waits (by omega) hfree fun i h1 h2 => hhigh i h1 (by omega)).poll hl h.op_ne hr
    (hhigh (w + 1) (by omega) (Nat.le_refl _))
  have hpcnt : u.pcnt = w := congrArg Engine.pcnt hu
  have hpresent : u.present = s.present := congrArg Engine.present hu
  rw [tickStep_prWait _ u (congrArg Engine.ph hu), presenceWaitTick_high_last (by rw [hpcnt, hup, hw])] at hpoll
  exact hpoll.completed hl (hpresent.trans (h.invariant.noOutcomeYet h.checks).1) rfl

/-- After `l + 1` low samples from poll `f + 1` on a high one ends the check, as SHORT or with PRESENT by the number of them. -/
theorem PresenceStart.ends_high {s : State} (h : PresenceStart s) {f l : Nat} (hf : f < s.params.pWaitMax)
    (hmax : l < s.params.pLowMax) (hr : PollsFree (f + 1 + l + 1) s)
    (hhigh : ∀ i, 1 ≤ i → i ≤ f → SampleAt (i * s.params.clkPerTick - 1) s true)
    (hlow : ∀ i, f < i → i ≤ f + 1 + l → SampleAt (i * s.params.clkPerTick - 1) s false)
    (hrise : SampleAt ((f + 1 + l + 1) * s.params.clkPerTick - 1) s true) :
    ∃ t, Runs ((f + 1 + l + 1) * s.params.clkPerTick) s t ∧ t.busy = false ∧ t.done = true ∧
      (l + 1 < s.params.pLowMin → t.present = false ∧ t.pfail = .short) ∧
      (s.params.pLowMin ≤ l + 1 → t.present = true ∧ t.pfail = .none) := by
  have hl := h.invariant.legal
  obtain ⟨hno, hnone⟩ := h.invariant.noOutcomeYet h.checks
  have hfree : PollsFree (f + 1 + l) s := hr.mono (Nat.mul_le_mul_right _ (Nat.le_succ _))
  obtain ⟨u, hu, hup, hpoll⟩ := (h.counts hf hmax hfree hhigh hlow).poll hl h.op_ne hr hrise
  have hpcnt : u.pcnt = l + 1 := congrArg Engine.pcnt hu
  have hpresent : u.present = s.present := congrArg Engine.present hu
  have hpfail : u.pfail = s.pfail := congrArg Engine.pfail hu
  rw [tickStep_prLow _ u (congrArg Engine.ph hu)] at hpoll
  by_cases hshort : l + 1 < s.params.pLowMin
  · rw [presenceLowTick_high_short (by rw [hpcnt, hup]; exact hshort)] at hpoll
    obtain ⟨t, hrun, hidle, hdone, houtcome⟩ := hpoll.completed hl (hpresent.trans hno) rfl
    exact ⟨t, hrun, hidle, hdone, fun _ => houtcome, fun hge => absurd hshort (Nat.not_lt.2 hge)⟩
  · rw [presenceLowTick_high_present (by rw [hpcnt, hup]; exact Nat.not_lt.1 hshort)] at hpoll
    obtain ⟨t, hrun, hidle, hdone, houtcome⟩ := hpoll.completed hl rfl (hpfail.trans hnone)
    exact ⟨t, hrun, hidle, hdone, fun hlt => absurd hlt hshort, fun _ => houtcome⟩

/-- After P_LOW_MAX low samples from poll `f + 1` on one more ends the check with LONG. -/
theorem PresenceStart.ends_long {s : State} (h : PresenceStart s) {f : Nat} (hf : f < s.params.pWaitMax)
    (hr : PollsFree (f + 1 + s.params.pLowMax) s)
    (hhigh : ∀ i, 1 ≤ i → i ≤ f → SampleAt (i * s.params.clkPerTick - 1) s true)
    (hlow : ∀ i, f < i → i ≤ f + 1 + s.params.pLowMax → SampleAt (i * s.params.clkPerTick - 1) s false) :
    ∃ t, Runs ((f + 1 + s.params.pLowMax) * s.params.clkPerTick) s t ∧ t.busy = false ∧ t.done = true ∧ t.present = false ∧
      t.pfail = .long := by
  have hl := h.invariant.legal
  obtain ⟨-, ⟨-, -, hmin⟩, hle, -⟩ := (Params.legal_iff _).1 hl
  obtain ⟨m, hm⟩ := Nat.exists_eq_add_of_le' (hmin.trans hle)
  rw [hm] at hr hlow ⊢
  have hfree : PollsFree (f + 1 + m) s := hr.mono (Nat.mul_le_mul_right _ (Nat.le_succ _))
  obtain ⟨u, hu, hup, hpoll⟩ := (h.counts hf (by omega) hfree hhigh fun i h1 h2 => hlow i h1 (by omega)).poll hl h.op_ne hr
    (hlow (f + 1 + m + 1) (by omega) (by omega))
  have hpcnt : u.pcnt = m + 1 := congrArg Engine.pcnt hu
  have hpresent : u.present = s.present := congrArg Engine.present hu
  rw [tickStep_prLow _ u (congrArg Engine.ph hu),
    presenceLowTick_low_long (by rw [hpcnt, hup, hm]; exact Nat.lt_succ_self _)] at hpoll
  exact hpoll.completed hl (hpresent.trans (h.invariant.noOutcomeYet h.checks).1) rfl

/-- Settles O37: the polls wait, count and end as their samples say; the statement numbers the first low poll from 1. -/
theorem presenceOutcomeBySamples : Obligations.PresenceOutcomeBySamples := by
  unfold Obligations.PresenceOutcomeBySamples
  intro s hs hph hpcnt hpre k hr
  have h : PresenceStart s := ⟨hs, hph, hpcnt, hpre⟩
  have hfree : ∀ n, n ≤ s.params.pWaitMax + s.params.pLowMax → PollsFree n s := fun n hn => hr.mono (Nat.mul_le_mul_right _ hn)
  refine ⟨h.ends_nofall (hfree _ (Nat.le_add_right _ _)), fun f h1f hf hhigh => ?_⟩
  obtain ⟨f, rfl⟩ := Nat.exists_eq_add_of_le' h1f
  have hhigh : ∀ i, 1 ≤ i → i ≤ f → SampleAt (i * k - 1) s true := fun i h1 h2 => hhigh i h1 (by omega)
  refine ⟨fun l h1l hmax hlow hrise => ?_, fun hlow => ?_⟩
  · obtain ⟨l, rfl⟩ := Nat.exists_eq_add_of_le' h1l
    exact h.ends_high (by omega) (by omega) (hfree _ (by omega)) hhigh (fun i h1 h2 => hlow i h1 (by omega)) hrise
  · exact h.ends_long (by omega) (hfree _ (by omega)) hhigh hlow

end Sys2Proof.Machine
end
